-- ==== Sys2Proof/Word.lean ====
section
/-! DEFINITION. The word types of the adapter core (spec/00_scope.md R2, R3; spec/30_encoding.md R70). -/

namespace Sys2Proof

/-- R2: a byte is 8 bits; every buffer element and codec operand is one. -/
abbrev Byte := BitVec 8

/-- R3: `LEN_W` = 13, the width of a length register and of a buffer index. -/
abbrev Length := BitVec 13

/-- R3: `BITCNT_W` = 16, the width of the bit count handed to the link. -/
abbrev BitCount := BitVec 16

/-- R71: format C, the 16-bit command word of the host command port. -/
abbrev CommandWord := BitVec 16

/-- R72: format L, the 18-bit link request. -/
abbrev RequestWord := BitVec 18

end Sys2Proof
end

