-- ==== Sys2Proof/Config.lean ====
section
/-! DEFINITION. The implementation parameters of spec/00_scope.md section 4 and the free values: opaque
constants that stand where the spec says "unspecified", "any value" or "a draw" (R32, V1 to V8). -/

namespace Sys2Proof

/-- The byte spaces that have storage of their own (spec/20_memory.md R40). -/
inductive Space where
  /-- `OB`, the outbound transfer buffer (R11). -/
  | ob
  /-- `IB`, the inbound transfer buffer (R12); `RX` is the same storage (R21). -/
  | ib
  /-- `TX`, the temporary buffer (R20). -/
  | tx
deriving DecidableEq, Repr

/-- R21: `RX` and `IB` are the same storage. -/
abbrev Space.rx : Space := .ib

/-- The electrical level of the control line (R23, R108). -/
inductive LineLevel where
  | low
  | high
deriving DecidableEq, Repr, Inhabited

/-- R43: which bit of a byte of the link's array is first in time on the serial stream. -/
inductive BitOrder where
  | lsbFirst
  | msbFirst
deriving DecidableEq, Repr, Inhabited

/-- R156, R148: the session mode, "chosen once at startup from configuration". -/
inductive SessionMode where
  /-- R148: a direct chip-select action instead of a transfer. -/
  | csAction (b : Bool)
  /-- R149: one transfer of the whole input. -/
  | oneShot
  /-- R150: transfers of blocks of `l` bytes; the parameter `L`. -/
  | interactive (l : Nat)
deriving DecidableEq, Repr, Inhabited

/-- R152: the configured output mode, the parameter `OUTPUT_MODE`. -/
inductive OutputMode where
  | hex
  | raw
deriving DecidableEq, Repr, Inhabited

/-- R5, R24: the parameters of the step relation (`Machine.stepWith`), which are no state: the configuration of
a session, and what spec/00_scope.md section 4 leaves OPEN, "the model takes it as an argument". `LERR_W`, the
width of a register and so part of the type of the state, is the constant `Config.lerrWidth`. -/
structure Parameters where
  /-- R156: the session mode, with the block length `L` of R150. -/
  mode : SessionMode
  /-- R152: `OUTPUT_MODE`. -/
  output : OutputMode
  /-- R152, D23: `HEX_CASE`, OPEN: whether the HOST writes hexadecimal digits as capitals. -/
  hexUpper : Bool
  /-- R25, D3: `HOST_BINDING`, OPEN: which binding carries the ports. No rule reads it (log entry 25). -/
  hostBinding : Nat
  /-- R101, D25: `CTL_LINE_ID`, OPEN: which physical JTAG line is the control line. No rule reads it. -/
  ctlLineId : Nat
  /-- R134, R205, D19: `LINK_ANSWERS`, OPEN: whether every link request is eventually answered. An assumption on
  the LINK's answers, stated by `Machine.LinkAdmitted` (log entry 38). -/
  linkAnswers : Bool
deriving DecidableEq, Repr, Inhabited

namespace Config

/-- R5, R24: the parameters that `Machine.step` runs with, fixed before the core is used and never changed. A
free value: nothing constrains it, also not to a block length in range (log entry 37). -/
opaque parameters : Parameters

/-- R18, D10: `LERR_W`, OPEN: the width of the error value that the LINK gives with a failure. A free value: no
number is chosen (log entry 5). -/
opaque lerrWidth : Nat

/-- R3: `MAXLEN`, the maximum transfer size and the capacity of every buffer. -/
def maxLen : Nat := 8191

/-- R43, D6: `LINK_BIT_ORDER` = `lsb_first`. PRESUMED by the spec itself (general knowledge, G1);
log entry 17. -/
def linkBitOrder : BitOrder := .lsbFirst

/-- R108, D7: `CTL_CLEAR_LEVEL` = 0 (low). PRESUMED by the spec itself (general knowledge, G2);
log entry 18. -/
def ctlClearLevel : LineLevel := .low

/-- R32, V1: the byte at index `k` of a space that nothing has written since reset number `epoch`.
A free value (log entry 3). -/
opaque freeByte (space : Space) (epoch k : Nat) : Byte

end Config

/-- R18: the opaque error value a LINK gives with a failure, `LERR_W` bits. No rule interprets it. -/
abbrev LinkError := BitVec Config.lerrWidth

namespace Config

/-- R18, V4: `LERR` where the spec leaves it unspecified; also the error value that a wrong-length
answer is given (R133). A free value (log entries 1, 6, 7). -/
opaque freeLerr (draw : Nat) : LinkError

/-- R108, V5: the level of `LINE` where it is "either level (a draw)". A free value (log entry 2). -/
opaque freeLine (draw : Nat) : LineLevel

/-- R41, V8: what a HOST read of index 8191 returns. A free value (log entry 11). -/
opaque freeRead (draw : Nat) : Byte

/-- R32: `CSEN` after reset. A free value (log entry 1). -/
opaque freeCsen (draw : Nat) : Bool

/-- R32: `K` after reset. A free value (log entry 1). -/
opaque freeK (draw : Nat) : Length

/-- R32: `T` after reset, and after an exchange that failed. A free value (log entries 1, 12). -/
opaque freeT (draw : Nat) : BitCount

end Config

end Sys2Proof
end

