-- ==== Sys2Proof/Syntax.lean ====
section
/-! DEFINITION. The operations of spec/opcode_table.json, one constructor per row. -/

namespace Sys2Proof

/-- The instruction set: what the HOST selects on the codec port (format P) and the command port
(format C), and what the core requests of the LINK (format L) (spec/30_encoding.md R70). -/
inductive Instr where
  /-- `REV8 b` (R92): the codec applied to one byte. -/
  | rev8 (b : Byte)
  /-- `SETCS en` (R100): `en` = true asserts the chip select. -/
  | setcs (en : Bool)
  /-- `TRANSACT n` (R115): one transaction of `n` bytes. The operand is wider than the 13 bits of
  format C, so that `E_LEN` (R116, R172) can be stated. -/
  | transact (n : Nat)
  /-- `CTLCLR` (R102): clear the control line. -/
  | ctlclr
  /-- `CTLSET` (R103): set the control line. -/
  | ctlset
  /-- `XCHG bc` (R119): exchange `bc` bits. -/
  | xchg (bc : BitCount)
deriving DecidableEq, Repr

end Sys2Proof
end

