-- ==== Sys2Proof/WellFormed.lean ====
section
/-! DEFINITION. Which instructions an encoding can hold (spec/30_encoding.md R74, R76, R77). -/

namespace Sys2Proof

/-- R4, R74: a transaction length is at most `MAXLEN`. -/
def lengthInRange (n : Nat) : Bool := n ≤ Config.maxLen

/-- R47, R77: the bit count of an exchange is a multiple of 8. -/
def bitCountWhole (bc : BitCount) : Bool := bc &&& 7#16 == 0#16

/-- An instruction that its format can encode. -/
def WellFormed : Instr → Bool
  | .rev8 _ => true
  | .setcs _ => true
  | .transact n => lengthInRange n
  | .ctlclr => true
  | .ctlset => true
  | .xchg bc => bitCountWhole bc

end Sys2Proof
end

