-- ==== Sys2Proof/Decode.lean ====
section
/-! DEFINITION. Decoding and encoding of the three formats (spec/30_encoding.md R70 to R77). The format
is the port on which the word stands; no word is ever stored in a memory (R58). -/

namespace Sys2Proof

/-- A word on one of the three ports (R70). -/
inductive PortWord where
  /-- Format P: the codec operand `rev_in[7:0]` (R73). -/
  | p (b : Byte)
  /-- Format C: the command word `cmd[15:0]` (R71). -/
  | c (w : CommandWord)
  /-- Format L: the link request `kind[1:0]`, `bc[15:0]` (R72). -/
  | l (r : RequestWord)
deriving DecidableEq, Repr

/-- Why a word is no instruction (R77). -/
inductive DecodeError where
  /-- Format C with `op` = 0 or 3 to 7. -/
  | reservedOp
  /-- Format C with `op` = 1 and `cmd[12:1]` not 0. -/
  | setcsArgument
  /-- Format L with `kind` = 3. -/
  | reservedKind
  /-- Format L, a control-line request with `bc` not 0. -/
  | controlBitCount
  /-- Format L, an exchange whose `bc` is not a multiple of 8. -/
  | partialByte
deriving DecidableEq, Repr

/-- R71, R74, R75: format C. -/
def decodeCommand (w : CommandWord) : Except DecodeError Instr :=
  let op := w.extractLsb' 13 3
  let arg := w.extractLsb' 0 13
  if op = 1#3 then
    if arg >>> 1 = 0#13 then .ok (.setcs (arg.getLsbD 0)) else .error .setcsArgument
  else if op = 2#3 then .ok (.transact arg.toNat)
  else .error .reservedOp

/-- R72, R76: format L. -/
def decodeRequest (r : RequestWord) : Except DecodeError Instr :=
  let kind := r.extractLsb' 16 2
  let bc := r.extractLsb' 0 16
  if kind = 0#2 then
    if bc = 0#16 then .ok .ctlclr else .error .controlBitCount
  else if kind = 1#2 then
    if bc = 0#16 then .ok .ctlset else .error .controlBitCount
  else if kind = 2#2 then
    if bitCountWhole bc then .ok (.xchg bc) else .error .partialByte
  else .error .reservedKind

/-- The decoder: total on every word of every port, rejecting by name (R73, R75, R76, R77). -/
def decode : PortWord → Except DecodeError Instr
  | .p b => .ok (.rev8 b)
  | .c w => decodeCommand w
  | .l r => decodeRequest r

/-- R75: `SETCS en` = 0x2000 | `en`. -/
def encodeSetcs (en : Bool) : CommandWord := 0x2000#16 ||| (BitVec.ofBool en).setWidth 16

/-- R75: `TRANSACT n` = 0x4000 | `n`. -/
def encodeTransact (n : Nat) : CommandWord := 2#3 ++ BitVec.ofNat 13 n

/-- R76: `XCHG bc` is kind 2 with the bit count below it. -/
def encodeXchg (bc : BitCount) : RequestWord := 2#2 ++ bc

/-- The encoder: the word of a well-formed instruction, with the port it stands on. -/
def encode : Instr → PortWord
  | .rev8 b => .p b
  | .setcs en => .c (encodeSetcs en)
  | .transact n => .c (encodeTransact n)
  | .ctlclr => .l 0x00000#18
  | .ctlset => .l 0x10000#18
  | .xchg bc => .l (encodeXchg bc)

/-- The instruction that the decoder reads from the table's number `w` of `nbits` bits. The table's
width tells the format apart: 8 bits are format P, 16 format C, 18 (24 in whole bytes) format L. -/
def decodeTableWord (nbits w : Nat) : Option Instr :=
  if nbits = 8 then
    if w < 2 ^ 8 then (decode (.p (BitVec.ofNat 8 w))).toOption else none
  else if nbits = 16 then
    if w < 2 ^ 16 then (decode (.c (BitVec.ofNat 16 w))).toOption else none
  else if nbits = 18 ∨ nbits = 24 then
    if w < 2 ^ 18 then (decode (.l (BitVec.ofNat 18 w))).toOption else none
  else none

end Sys2Proof
end

