-- ==== Sys2Proof/Machine/State.lean ====
section
/-! DEFINITION. The state of the machine: the core (spec/10_state.md R10), its ports, and the
environment it works in (R23, spec/00_scope.md R7). Plain data. -/

namespace Sys2Proof.Machine

/-- A byte space: the (index, byte) pairs that hold a specified value, in one canonical form
(`Memory.wf`). An index that is not listed holds no specified value (R32; log entry 4). -/
abbrev Memory := List Host.Cell

/-- R15: the chip-select shadow state. The reserved value 3 is never held. -/
inductive Css where
  | unknown
  | deasserted
  | asserted
deriving DecidableEq, Repr

/-- R16: the step the core performs next, the analogue of a program counter. The reserved value 7 is
never held. -/
inductive Phase where
  | idle
  | assert
  | revOut
  | exchange
  | deassert
  | revIn
  | csOnly
deriving DecidableEq, Repr

/-- R170: the cause of the last failure. The reserved value 7 is never written. -/
inductive ECode where
  | eNone
  | eCmd
  | eLen
  | eCsAssert
  | eXchg
  | eCsDeassert
  | eCtl
deriving DecidableEq, Repr

/-- What the LINK answers to a request (R7, R188). A control-line request has no data: its `ok`
carries the empty list, and any data with it is not seen (log entry 16). -/
inductive LinkAnswer where
  | ok (rx : List Byte)
  | fail (e : LinkError)
deriving DecidableEq, Repr

/-- What the LINK does next (R7, R134, R197). -/
inductive LinkInput where
  /-- It answers the request that is outstanding, or the next one that the core issues. -/
  | answer (a : LinkAnswer)
  /-- It gives no answer for the length of one step. -/
  | silent
  /-- It answers a request that a reset has abandoned; such an answer is ignored (R197). -/
  | late (a : LinkAnswer)
deriving DecidableEq, Repr

/-- How a request in `LINKLOG` ended (R23, R197). -/
inductive LinkResult where
  | ok (rx : List Byte)
  | fail (e : LinkError)
  /-- R197: a reset came before the answer; `LINKLOG` keeps the request with no answer. -/
  | unanswered
deriving DecidableEq, Repr

/-- R23: an event of the link history. -/
inductive LinkEvent where
  | ctlClear (r : LinkResult)
  | ctlSet (r : LinkResult)
  | xchg (tx : List Byte) (bc : BitCount) (r : LinkResult)
deriving DecidableEq, Repr

/-- R146: where the HOST's session stands. `closed` says whether the session ended in success (R154). The mode
and the block length are no state (R5, R24): they are in `Parameters`. -/
inductive HostState where
  | idle
  | deviceReady
  | oneShotTransfer
  | interactiveLoop
  | closed (success : Bool)
deriving DecidableEq, Repr

/-- R24, R147, R199: what the HOST holds of the device. -/
inductive Device where
  /-- No device is open. -/
  | notOpen
  /-- Steps (1) to (3) of R147 are done: exactly one device is open and its handle is held. -/
  | opened
  /-- Steps (5) and (6) of R147 are done as well: the JTAG interface is the selected one. -/
  | jtagSelected
deriving DecidableEq, Repr

/-- The model's own (log entry 22): how far the HOST is in what its session state has it do. -/
inductive SessionStage where
  /-- Nothing is begun since the session state was reached. -/
  | fresh
  /-- `BOOT` is under way: its own `setcs 0` and the look at the result (R147 (4)). -/
  | booting
  /-- The direct chip-select action is under way (R148). -/
  | acting
  /-- A transfer is under way (R149, R150). -/
  | transferring
  /-- It ended in success: the action is done, the response emitted, or no input is left. -/
  | finished
  /-- A fatal condition: the recovery, when it is owed, and `CLOSE` are left (R154, R182). -/
  | failed
deriving DecidableEq, Repr

/-- The model's own (log entry 33): what the HOST remembers of the recovery that R182 asks for. -/
inductive Recovery where
  /-- Nothing but what `STATUS` shows. -/
  | clear
  /-- A failure whose recovery is owed was acknowledged by another command than `setcs 0`, or by a reset. -/
  | owed
  /-- The last command was the recovery `setcs 0`; its own failure is not retried (R183). -/
  | issued
deriving DecidableEq, Repr

/-- One action of the HOST: the port accesses of R25 to R28, the reset input (R195), and the steps of
the session sequences (spec/43_session_sequences.md). -/
inductive HostAction where
  /-- The write port of `OB` (R26). -/
  | obWrite (addr : Length) (data : Byte)
  /-- The read-back of `OB` that a binding may offer (R26). -/
  | obRead (addr : Length)
  /-- The read port of `IB` (R26). -/
  | ibRead (addr : Length)
  /-- The status port (R27). -/
  | readStatus
  /-- The codec port (R28). -/
  | codec (b : Byte)
  /-- The command port (R25): any word, legal or not. -/
  | command (w : CommandWord)
  /-- The reset input (R195, R197). -/
  | reset
  /-- The HOST leaves the step to the CORE and the LINK. -/
  | yield
  /-- A whole session over an input stream: the check of the configuration, BOOT, then the sequence of the
  configured mode (R145, R156). -/
  | session (input : List Byte)
  /-- `BOOT` (R147). -/
  | boot
  /-- The end of `BOOT`: `DeviceReady` is reached (R147 (5), (6)). -/
  | ready
  /-- The sequence of the configured mode over what is left of the input stream: R148 (which reads none of it),
  R149 or one round of R150. -/
  | start (input : List Byte)
  /-- The HOST looks at the result of a command; a failure is fatal (R154, R182). -/
  | check
  /-- The HOST looks at the result of a transfer and emits the response (R149, R150, R202). -/
  | emit
  /-- `CLOSE` (R153). -/
  | close (success : Bool)
deriving DecidableEq, Repr

/-- The machine: the core of R10, its ports, its environment, and the model's own counters. -/
@[ext]
structure State where
  /-- `OB` (R11). -/
  ob : Memory
  /-- `IB`, and `RX` (R12, R21). -/
  ib : Memory
  /-- `TX` (R20). -/
  tx : Memory
  /-- `LEN` (R13). -/
  len : Length
  /-- `ILEN` (R19). -/
  ilen : Length
  /-- `CSS` (R15). -/
  css : Css
  /-- `PHASE` (R16). -/
  phase : Phase
  /-- `STATUS.DONE` (R17). -/
  done : Bool
  /-- `STATUS.ERR` (R17). -/
  err : Bool
  /-- `STATUS.IBVALID` (R17). -/
  ibvalid : Bool
  /-- `ECODE` (R18). -/
  ecode : ECode
  /-- `FPH` (R18). -/
  fph : Phase
  /-- `LERR` (R18). -/
  lerr : LinkError
  /-- `CSEN` (R22). -/
  csen : Bool
  /-- `K` (R22). -/
  k : Length
  /-- `T` (R22). -/
  t : BitCount
  /-- A link request is issued and not yet answered (R134). -/
  waiting : Bool
  /-- The level on the codec port's `rev_in` (R28). -/
  revIn : Byte
  /-- What the last buffer read returned (R26). -/
  rdata : Byte
  /-- `LINE` (R23, R108). -/
  line : LineLevel
  /-- `LINKLOG` (R23), oldest event first. -/
  linkLog : List LinkEvent
  /-- What the HOST still has to do, first action first (R6, R81). -/
  host : List HostAction
  /-- What the LINK will do, first input first (R7, R81). -/
  link : List LinkInput
  /-- The state of the HOST's session (R146). -/
  hostState : HostState
  /-- The HOST's device handle (R24, R147, R199). -/
  device : Device
  /-- The model's own: how far the HOST is in its sequence (R147 to R150). -/
  stage : SessionStage
  /-- The model's own: what the HOST remembers of an owed recovery (R182, R183). -/
  recovery : Recovery
  /-- The responses the HOST has emitted, first one first (R149, R150). -/
  emitted : List (List Byte)
  /-- The model's own: the number of the next free value. -/
  draws : Nat
  /-- The model's own: the number of resets, which names the bytes nothing has written. -/
  epoch : Nat
deriving DecidableEq, Repr

/-- R32: the machine right after reset, at the start of a run. The values that R32 leaves unspecified
are free values (log entries 1, 2, 10, 11, 14). -/
def State.reset : State where
  ob := []
  ib := []
  tx := []
  len := 0
  ilen := 0
  css := .unknown
  phase := .idle
  done := false
  err := false
  ibvalid := false
  ecode := .eNone
  fph := .idle
  lerr := Config.freeLerr 0
  csen := Config.freeCsen 0
  k := Config.freeK 0
  t := Config.freeT 0
  waiting := false
  revIn := 0
  rdata := 0
  line := Config.freeLine 0
  linkLog := []
  host := []
  link := []
  hostState := .idle
  device := .notOpen
  stage := .fresh
  recovery := .clear
  emitted := []
  draws := 1
  epoch := 0

/-- Why the machine stops with a fault. -/
inductive Fault where
  /-- Raised by the general `REVBUF` (`revBuf`) when a range leaves the buffer: R41 says that such an
  index selects no byte. No step of the core raises it. Safe: the model stops. -/
  | bufferRange
deriving DecidableEq, Repr

/-- Why a step is refused. -/
inductive Refusal where
  /-- An instruction that has no meaning yet. No arm of `exec` raises it. Safe: the model stops. -/
  | notModelled (mnemonic : String)
  /-- `exec` of a format C command while `BUSY` = 1: the HOST has no such step (R25, V9). `step` never
  raises it: its HOST waits. Safe: the model stops. -/
  | commandWhileBusy
  /-- `exec` of a format L request that the core's phase does not issue (R125, V11). `step` never
  raises it. Safe: the model stops. -/
  | requestNotIssued
  /-- The core's own request does not decode. Nothing reaches it: every request of the core is
  well formed (R77). Safe: the model stops. -/
  | malformedRequest
  /-- A HOST read of an `IB` byte that has no specified value (R12, V2): "a model should refuse such a
  read rather than pick one". Safe: the model stops. -/
  | unspecifiedRead
  /-- The general `REVBUF` (`revBuf`) with source and destination overlapping at an offset (R95). No
  step of the core raises it. Safe: the model stops. -/
  | partialOverlap
  /-- A session action of the HOST out of the order of R146 and R147: no edge of R146 leads there. Safe: the
  model stops. -/
  | sessionOrder
deriving DecidableEq, Repr

end Sys2Proof.Machine
end

