-- ==== Sys2Proof/Machine/Operands.lean ====
section
/-! DEFINITION. Operand assembly (spec/30_encoding.md R74, R78) and the numeric encodings of the state
fields (R79). -/

namespace Sys2Proof.Machine

/-- R14, R74: `BITCNT` = `{LEN, 0b000}`. -/
def bitCount (len : Length) : BitCount := len ++ 0#3

/-- R14: `BITCNT` is not storage but a view of `LEN`. -/
def State.bitcnt (s : State) : BitCount := bitCount s.len

/-- R101: the two requests of the control-line port. -/
inductive ControlVerb where
  /-- `CTLCLR`: clear the control line. -/
  | clear
  /-- `CTLSET`: set the control line. -/
  | set
deriving DecidableEq, Repr

/-- R78, R101: the inverted polarity: enabled clears the line, disabled sets it. -/
def controlVerb (en : Bool) : ControlVerb := if en then .clear else .set

/-- The instruction that a request of the control-line port is. -/
def ControlVerb.instr : ControlVerb → Instr
  | .clear => .ctlclr
  | .set => .ctlset

/-- R16, R125: the link operation that the present phase issues, if it issues one. -/
def State.request (s : State) : Option Instr :=
  match s.phase with
  | .assert => some .ctlclr
  | .exchange => some (.xchg s.bitcnt)
  | .deassert => some .ctlset
  | .csOnly => some (controlVerb s.csen).instr
  | .idle => none
  | .revOut => none
  | .revIn => none

/-- R72: the word of an operation on the link port; only format L stands there. -/
def linkWord (i : Instr) : Option RequestWord :=
  match encode i with
  | .l r => some r
  | .c _ => none
  | .p _ => none

/-- R72, R76: the word the core puts on the link port in the present phase. -/
def State.requestWord (s : State) : Option RequestWord := s.request.bind linkWord

/-- R15, R79. -/
def cssCode : Css → BitVec 2
  | .unknown => 0
  | .deasserted => 1
  | .asserted => 2

/-- R16, R79. -/
def phaseCode : Phase → BitVec 3
  | .idle => 0
  | .assert => 1
  | .revOut => 2
  | .exchange => 3
  | .deassert => 4
  | .revIn => 5
  | .csOnly => 6

/-- R79, R170. -/
def ecodeCode : ECode → BitVec 3
  | .eNone => 0
  | .eCmd => 1
  | .eLen => 2
  | .eCsAssert => 3
  | .eXchg => 4
  | .eCsDeassert => 5
  | .eCtl => 6

end Sys2Proof.Machine
end

