-- ==== Sys2Proof/Machine/Flags.lean ====
section
/-! DEFINITION. The status flags and the status port (spec/10_state.md R17, R27). -/

namespace Sys2Proof.Machine

/-- R17: `BUSY` is not storage: it is 1 exactly when `PHASE` is not `IDLE`. -/
def State.busy (s : State) : Bool := s.phase != .idle

/-- R25: `cmd_ready` = 1 exactly when `PHASE` = `IDLE`. -/
def State.cmdReady (s : State) : Bool := s.phase == .idle

/-- R17, R79: `STATUS[3:0]`, bit 0 `BUSY`, 1 `DONE`, 2 `ERR`, 3 `IBVALID`. -/
def State.status (s : State) : BitVec 4 :=
  BitVec.ofBool s.ibvalid ++ BitVec.ofBool s.err ++ BitVec.ofBool s.done ++ BitVec.ofBool s.busy

/-- R27: what the status port shows. -/
structure StatusPort where
  status : BitVec 4
  ecode : BitVec 3
  fph : BitVec 3
  lerr : LinkError
  css : BitVec 2
  len : Length
  ilen : Length
deriving DecidableEq, Repr

/-- R27: the status port, read-only and without side effect. -/
def State.statusPort (s : State) : StatusPort where
  status := s.status
  ecode := ecodeCode s.ecode
  fph := phaseCode s.fph
  lerr := s.lerr
  css := cssCode s.css
  len := s.len
  ilen := s.ilen

/-- R116, R182: what the acceptance of any command clears. R18: `LERR` is left unspecified. -/
def clearResult (s : State) : State :=
  { s with
    done := false
    err := false
    ecode := .eNone
    fph := .idle
    lerr := Config.freeLerr s.draws
    draws := s.draws + 1 }

/-- R17: an operation ends in success: `DONE` set, the core idle again. -/
def complete (s : State) : State :=
  { s with done := true, phase := .idle }

end Sys2Proof.Machine
end

