-- ==== Sys2Proof/Machine/Ops.lean ====
section
/-! DEFINITION. The named operations over buffers, registers and the link, taking a failure (R180), and
reset (R195, R197). -/

namespace Sys2Proof.Machine

/-! ### Buffers (spec/20_memory.md R40, R41) -/

/-- The byte at index `k`, or none where nothing specified stands there (R32). -/
def Memory.read : Memory → Nat → Option Byte
  | [], _ => none
  | (a, b) :: rest, k => if a = k then some b else Memory.read rest k

/-- The byte `v` put at index `k` of an ordered list. -/
def Memory.insert : Memory → Nat → Byte → Memory
  | [], k, v => [(k, v)]
  | (a, b) :: rest, k, v =>
    if k < a then (k, v) :: (a, b) :: rest
    else if k = a then (k, v) :: rest
    else (a, b) :: Memory.insert rest k v

/-- R41: a write; an index at or above `MAXLEN` selects no byte and the write is dropped. -/
def Memory.write (m : Memory) (k : Nat) (v : Byte) : Memory :=
  if k < Config.maxLen then m.insert k v else m

/-- The bytes `vs` written from index `k` on. -/
def Memory.writeAll (m : Memory) (k : Nat) : List Byte → Memory
  | [] => m
  | v :: vs => Memory.writeAll (m.write k v) (k + 1) vs

/-- Every index is at least `lo` and below `MAXLEN`, and they rise strictly. -/
def Memory.wfFrom : Memory → Nat → Bool
  | [], _ => true
  | (a, _) :: rest, lo => lo ≤ a && a < Config.maxLen && Memory.wfFrom rest (a + 1)

/-- The canonical form: indices strictly rising and inside the buffer. An unlisted index holds no
value, so no entry can equal what it reads as. -/
def Memory.wf (m : Memory) : Bool := Memory.wfFrom m 0

/-- Every index below `n` holds a specified value. -/
def Memory.filled (m : Memory) (n : Nat) : Bool := (List.range n).all fun k => (m.read k).isSome

/-- R40: the storage of a space. -/
def State.store (s : State) : Space → Memory
  | .ob => s.ob
  | .ib => s.ib
  | .tx => s.tx

/-- `MemRead(S:k, 1)`. A byte that holds no specified value is a free value (log entry 3). -/
def State.readByte (s : State) (sp : Space) (k : Nat) : Byte :=
  ((s.store sp).read k).getD (Config.freeByte sp s.epoch k)

/-- `MemWrite(S:k, 1, v)`. -/
def State.writeByte (s : State) (sp : Space) (k : Nat) (v : Byte) : State :=
  match sp with
  | .ob => { s with ob := s.ob.write k v }
  | .ib => { s with ib := s.ib.write k v }
  | .tx => { s with tx := s.tx.write k v }

/-- R30, R42: the byte array handed to the LINK, `TX[0]` to `TX[LEN-1]`. -/
def State.txBytes (s : State) : List Byte :=
  (List.range s.len.toNat).map fun k => s.readByte .tx k

/-! ### The link (spec/10_state.md R29, R30) -/

/-- The LINK's next answer to a live request and what it does after it; none while it is silent. An
answer to an abandoned request is passed over (R197). -/
def nextAnswer : List LinkInput → Option (LinkAnswer × List LinkInput)
  | [] => none
  | .answer a :: rest => some (a, rest)
  | .late _ :: rest => nextAnswer rest
  | .silent :: _ => none

/-- What the LINK does after a step in which it gave no answer. -/
def afterSilence : List LinkInput → List LinkInput
  | [] => []
  | .answer a :: rest => .answer a :: rest
  | .late _ :: rest => afterSilence rest
  | .silent :: rest => rest

/-- R134: the request is issued and its answer has not come: the core waits. DESIGN CHOICE (log entry 31):
`LINE` keeps its level until the answer comes, on which R108 is silent. DESIGN CHOICE (log entry 36): in
`EXCHANGE` the bit index `T` (R22) keeps the value from before the phase until the answer comes. -/
def awaitLink (s : State) : State :=
  { s with waiting := true, link := afterSilence s.link }

/-- `log(ev)` (R23), with the answer taken from the LINK. -/
def answered (ev : LinkEvent) (rest : List LinkInput) (s : State) : State :=
  { s with linkLog := s.linkLog ++ [ev], link := rest, waiting := false }

/-- R108: the level of the control line that a successful request leaves. -/
def lineAfter : ControlVerb → LineLevel
  | .clear => Config.ctlClearLevel
  | .set => match Config.ctlClearLevel with
    | .low => .high
    | .high => .low

/-- R104: the state of the chip select that a successful request leaves. -/
def cssAfter : ControlVerb → Css
  | .clear => .asserted
  | .set => .deasserted

/-- R23: the event of a control-line request. -/
def controlEvent : ControlVerb → LinkResult → LinkEvent
  | .clear, r => .ctlClear r
  | .set, r => .ctlSet r

/-- R104, R108: a control-line request succeeded. -/
def lineMoved (v : ControlVerb) (s : State) : State :=
  { s with css := cssAfter v, line := lineAfter v }

/-- R104, R108: a control-line request failed: the line is at either level. -/
def lineLost (s : State) : State :=
  { s with css := .unknown, line := Config.freeLine s.draws, draws := s.draws + 1 }

/-! ### Taking a failure (spec/60_exceptions.md R180) -/

/-- `raise Err(code, e)`, exactly as R180 gives it; `transact` says whether the operation is a
`TRANSACT`. The analogue of the return is `clearResult`: the acceptance of the next command (R182). -/
def raiseErr (transact : Bool) (code : ECode) (e : LinkError) (s : State) : State :=
  { s with
    ecode := code
    fph := s.phase
    lerr := e
    err := true
    done := false
    ibvalid := if transact then false else s.ibvalid
    ilen := if transact then 0 else s.ilen
    phase := .idle }

/-- R12, R173 to R175: a `TRANSACT` that reached the phases fails: no byte of `IB` has a specified
value after it. -/
def failTransact (code : ECode) (e : LinkError) (s : State) : State :=
  { raiseErr true code e s with ib := [] }

/-- A failure that the core itself detects: `LERR` is unspecified (R18). -/
def raiseOwn (transact : Bool) (code : ECode) (s : State) : State :=
  { raiseErr transact code (Config.freeLerr s.draws) s with draws := s.draws + 1 }

/-- R171, R77: an accepted word that is no command. -/
def illegalCommand (s : State) : State := raiseOwn false .eCmd (clearResult s)

/-! ### A control-line request in its phase (R102, R103) -/

/-- R102, R103: what follows the answer `ok`: the next phase, or the end of a `SETCS`. DESIGN CHOICE (log entry
35): `CSEN`, which does not survive phase `CSONLY` (R22), keeps its value. -/
def controlOk (v : ControlVerb) (s : State) : State :=
  match s.phase with
  | .assert => { lineMoved v s with phase := .revOut }
  | .deassert => { lineMoved v s with phase := .revIn }
  | .csOnly => complete (lineMoved v s)
  | .idle => s
  | .revOut => s
  | .exchange => s
  | .revIn => s

/-- R102, R103: what follows the answer `fail(e)`: the error code is that of the phase (R170). `CSEN` as in
`controlOk` (log entry 35). -/
def controlFail (e : LinkError) (s : State) : State :=
  match s.phase with
  | .assert => failTransact .eCsAssert e (lineLost s)
  | .deassert => failTransact .eCsDeassert e (lineLost s)
  | .csOnly => raiseErr false .eCtl e (lineLost s)
  | .idle => s
  | .revOut => s
  | .exchange => s
  | .revIn => s

/-- R102, R103: one control-line request: issued, and answered as soon as the LINK answers. R125: a
phase that does not issue it has no such step. -/
def controlRequest (v : ControlVerb) (s : State) : Host.Outcome State Fault Refusal :=
  if s.request = some v.instr then
    match nextAnswer s.link with
    | none => .next (awaitLink s)
    | some (.ok _, rest) => .next (controlOk v (answered (controlEvent v (.ok [])) rest s))
    | some (.fail e, rest) => .next (controlFail e (answered (controlEvent v (.fail e)) rest s))
  else .refused .requestNotIssued

/-! ### REVBUF (spec/40_bitrev_codec.md R90 to R96) -/

/-- R91, first stage: the two bits of each adjacent pair change places. -/
def swapPairs (b : Byte) : Byte := ((b &&& 0xAA#8) >>> 1) ||| ((b &&& 0x55#8) <<< 1)

/-- R91, second stage: the two 2-bit groups of each nibble change places. -/
def swapNibblePairs (b : Byte) : Byte := ((b &&& 0xCC#8) >>> 2) ||| ((b &&& 0x33#8) <<< 2)

/-- R91, third stage: the two nibbles change places. -/
def swapNibbles (b : Byte) : Byte := ((b &&& 0xF0#8) >>> 4) ||| ((b &&& 0x0F#8) <<< 4)

/-- R90, R91: the bit reversal of a byte, by the three stages of R91. -/
def rev8 (b : Byte) : Byte := swapNibbles (swapNibblePairs (swapPairs b))

/-- One turn of the loop of R94: element `K`. -/
def reverseOne (dst src : Space) (s : State) : State :=
  { s.writeByte dst s.k.toNat (rev8 (s.readByte src s.k.toNat)) with k := s.k + 1 }

/-- `n` turns of the loop of R94, from the present `K` on. -/
def reverseLoop (dst src : Space) : Nat → State → State
  | 0, s => s
  | n + 1, s => reverseLoop dst src n (reverseOne dst src s)

/-- R94: `REVBUF dst, src, n`, both indexed from 0. -/
def reverseBuffer (dst src : Space) (n : Nat) (s : State) : State :=
  reverseLoop dst src n { s with k := 0 }

/-- R95: some destination element is the storage of another source element. -/
def partialOverlap (dst src : Space) (dOff sOff n : Nat) : Bool :=
  dst == src && dOff != sOff && dOff < sOff + n && sOff < dOff + n

/-- The bytes `rev8(src[sOff + K])` for `K < n`, as they stand before the operation. -/
def State.reversed (s : State) (src : Space) (sOff n : Nat) : List Byte :=
  (List.range n).map fun i => rev8 (s.readByte src (sOff + i))

/-- The bytes `vs` written to a space from index `k` on. -/
def State.writeBytes (s : State) (sp : Space) (k : Nat) : List Byte → State
  | [] => s
  | v :: vs => State.writeBytes (s.writeByte sp k v) sp (k + 1) vs

/-- R94, R95: `REVBUF` as a general function, with an offset into each buffer: a partial overlap is
refused, a range outside the buffer (R41) faults. The core uses `reverseBuffer` only. DESIGN CHOICE (log entry
26): two disjoint ranges of one buffer, which D21 leaves undefined, are reversed like distinct buffers. -/
def revBuf (dst src : Space) (dOff sOff n : Nat) (s : State) : Host.Outcome State Fault Refusal :=
  if Config.maxLen < dOff + n ∨ Config.maxLen < sOff + n then .fault .bufferRange
  else if partialOverlap dst src dOff sOff n then .refused .partialOverlap
  else .next (s.writeBytes dst dOff (s.reversed src sOff n))

/-! ### Reset (spec/70_reset_and_hazards.md R195 to R197) -/

/-- R23: the request that the present phase has issued, as an event without an answer. -/
def State.abandoned (s : State) : List LinkEvent :=
  match s.waiting, s.request with
  | true, some .ctlclr => [.ctlClear .unanswered]
  | true, some .ctlset => [.ctlSet .unanswered]
  | true, some (.xchg bc) => [.xchg s.txBytes bc .unanswered]
  | _, _ => []

/-- R32, R195, R197: the reset input. No link request is issued (R196); `LINE` is unknown after a
reset that came while `BUSY` = 1, and not changed by any other. DESIGN CHOICE (log entries 10 and 11): the
levels on the codec port's input and on the buffer read-data port stay, on which R32 is silent. -/
def coreReset (s : State) : State :=
  { s with
    ob := []
    ib := []
    tx := []
    len := 0
    ilen := 0
    css := .unknown
    phase := .idle
    done := false
    err := false
    ibvalid := false
    ecode := .eNone
    fph := .idle
    lerr := Config.freeLerr s.draws
    csen := Config.freeCsen s.draws
    k := Config.freeK s.draws
    t := Config.freeT s.draws
    waiting := false
    line := if s.busy then Config.freeLine s.draws else s.line
    linkLog := s.linkLog ++ s.abandoned
    draws := s.draws + 1
    epoch := s.epoch + 1 }

end Sys2Proof.Machine
end

