-- ==== Sys2Proof/Machine/ChipSelect.lean ====
section
/-! DEFINITION. The Chip-Select Controller (spec/41_chip_select.md R100 to R106). -/

namespace Sys2Proof.Machine

/-- R100: a `SETCS en` begins: the last result is cleared and `en` latched. -/
def beginSetcs (en : Bool) (s : State) : State :=
  { clearResult s with csen := en, phase := .csOnly }

/-- R100: the acceptance of `SETCS en` in `IDLE`; phase `CSONLY` then issues the request. R25, V9: there
is no such step while `BUSY` = 1. -/
def execSetcs (en : Bool) (s : State) : Host.Outcome State Fault Refusal :=
  if s.phase = .idle then .next (beginSetcs en s)
  else .refused .commandWhileBusy

/-- R102: `CTLCLR`, in phase `ASSERT`, and in `CSONLY` when `CSEN` = 1. -/
def execCtlclr (s : State) : Host.Outcome State Fault Refusal := controlRequest .clear s

/-- R103: `CTLSET`, in phase `DEASSERT`, and in `CSONLY` when `CSEN` = 0. -/
def execCtlset (s : State) : Host.Outcome State Fault Refusal := controlRequest .set s

end Sys2Proof.Machine
end

