-- ==== Sys2Proof/Machine/Codec.lean ====
section
/-! DEFINITION. The Bit Reversal Codec's port (spec/40_bitrev_codec.md R92, spec/10_state.md R28). -/

namespace Sys2Proof.Machine

/-- R28: `rev_out`, the codec's output, `rev8(rev_in)` at all times. -/
def State.revOut (s : State) : Byte := rev8 s.revIn

/-- R92: `REV8 b`: the HOST puts `b` on `rev_in`. No register of the core is read or written, in any
phase; the result stands on `rev_out` (log entry 10). -/
def execRev8 (b : Byte) (s : State) : Host.Outcome State Fault Refusal :=
  .next { s with revIn := b }

end Sys2Proof.Machine
end

