-- ==== Sys2Proof/Machine/Framer.lean ====
section
/-! DEFINITION. The Transaction Framer (spec/42_transaction_framer.md R115 to R133). -/

namespace Sys2Proof.Machine

/-- R115, R116: what the acceptance of a `TRANSACT` does first: the result of the last operation is
cleared and `IB` is invalidated. -/
def clearResponse (s : State) : State :=
  { clearResult s with ibvalid := false, ilen := 0 }

/-- R115: a `TRANSACT` whose length is in range begins. `TX` and `IB` hold no specified byte from here
on (R12, R20; log entry 13). -/
def beginTransact (n : Nat) (s : State) : State :=
  { clearResponse s with len := BitVec.ofNat 13 n, ib := [], tx := [], phase := .assert }

/-- R115, R116: the acceptance of `TRANSACT n` in `IDLE`; R172: `E_LEN` for a length above `MAXLEN`,
which no format C word can express. -/
def execTransact (n : Nat) (s : State) : Host.Outcome State Fault Refusal :=
  if s.phase = .idle then
    if n ≤ Config.maxLen then .next (beginTransact n s)
    else .next (raiseOwn true .eLen (clearResponse s))
  else .refused .commandWhileBusy

/-- R118: phase `REVOUT`: `TX[k] <- rev8(OB[k])` for `k < LEN`. -/
def revOutPhase (s : State) : State :=
  { reverseBuffer .tx .ob s.len.toNat s with phase := .exchange }

/-- R122: phase `REVIN`: `IB[k] <- rev8(RX[k])` for `k < LEN` in place, and the success. DESIGN CHOICE
(log entry 34): `TX`, which R20 calls unspecified from here on, keeps its bytes. -/
def revInPhase (s : State) : State :=
  complete { reverseBuffer .ib .rx s.len.toNat s with ilen := s.len, ibvalid := true }

/-- R119: the answer `ok(rx)` to the exchange: `RX[k] <- rx[k]`. -/
def exchangeOk (rx : List Byte) (s : State) : State :=
  { s with ib := s.ib.writeAll 0 rx, t := s.bitcnt, phase := .deassert }

/-- R120, R174: the answer `fail(e)` to the exchange. No `CTLSET` follows and `CSS` is not touched. -/
def exchangeFail (e : LinkError) (s : State) : State :=
  { failTransact .eXchg e s with t := Config.freeT s.draws, draws := s.draws + 1 }

/-- R119, R120, R130, R133: `XCHG bc` in phase `EXCHANGE`: one request with the byte array
`TX[0..LEN-1]`, and one answer. R133: an answer of another length is a `fail`; its error value is free
(log entry 7). -/
def execXchg (bc : BitCount) (s : State) : Host.Outcome State Fault Refusal :=
  if s.request = some (.xchg bc) then
    match nextAnswer s.link with
    | none => .next (awaitLink s)
    | some (.ok rx, rest) =>
      if rx.length = s.len.toNat then
        .next (exchangeOk rx (answered (.xchg s.txBytes bc (.ok rx)) rest s))
      else
        .next (exchangeFail (Config.freeLerr s.draws)
          (answered (.xchg s.txBytes bc (.fail (Config.freeLerr s.draws))) rest s))
    | some (.fail e, rest) =>
      .next (exchangeFail e (answered (.xchg s.txBytes bc (.fail e)) rest s))
  else .refused .requestNotIssued

end Sys2Proof.Machine
end

