-- ==== Sys2Proof/Machine/Dispatch.lean ====
section
/-! DEFINITION. The dispatch of the operations to their meanings, one arm per constructor. -/

namespace Sys2Proof.Machine

def exec (i : Instr) (s : State) : Host.Outcome State Fault Refusal :=
  match i with
  | .rev8 b => Sys2Proof.Machine.execRev8 b s
  | .setcs en => Sys2Proof.Machine.execSetcs en s
  | .transact n => Sys2Proof.Machine.execTransact n s
  | .ctlclr => Sys2Proof.Machine.execCtlclr s
  | .ctlset => Sys2Proof.Machine.execCtlset s
  | .xchg bc => Sys2Proof.Machine.execXchg bc s

end Sys2Proof.Machine
end

