-- ==== Sys2Proof/Machine/Ports.lean ====
section
/-! DEFINITION. The HOST's buffer ports (spec/10_state.md R26, spec/20_memory.md R41). The HOST uses them
only while `BUSY` = 0 (R55): `hostMay` gives it no other step. -/

namespace Sys2Proof.Machine

/-- R26, R41: a write to `OB`; index 8191 selects no byte and the write is dropped. -/
def hostObWrite (addr : Length) (data : Byte) (s : State) : State :=
  s.writeByte .ob addr.toNat data

/-- R41, V8: a read of index 8191 returns an unspecified value. -/
def hostReadNothing (s : State) : State :=
  { s with rdata := Config.freeRead s.draws, draws := s.draws + 1 }

/-- R26, R41: the read-back of `OB`. A byte that nothing has written reads as a free value (R32). -/
def hostObRead (addr : Length) (s : State) : State :=
  if addr.toNat < Config.maxLen then { s with rdata := s.readByte .ob addr.toNat }
  else hostReadNothing s

/-- R12, R202: the `IB` byte at index `k`, where it has a specified value. -/
def State.response (s : State) (k : Nat) : Option Byte :=
  if s.ibvalid ∧ k < s.ilen.toNat then s.ib.read k else none

/-- R12, R26, R41, R202: a read of `IB`. A byte with no specified value is not read (V2). -/
def hostIbRead (addr : Length) (s : State) : Host.Outcome State Fault Refusal :=
  if addr.toNat < Config.maxLen then
    match s.response addr.toNat with
    | some b => .next { s with rdata := b }
    | none => .refused .unspecifiedRead
  else .next (hostReadNothing s)

end Sys2Proof.Machine
end

