-- ==== Sys2Proof/Machine/Session.lean ====
section
/-! DEFINITION. The HOST's sequences, the pseudo-instructions of spec/30_encoding.md R82, as
spec/43_session_sequences.md R145 to R156 expand them. They add nothing to the core: each expands to
actions on the core's ports. -/

namespace Sys2Proof.Machine

/-- R81: `ob <hh> <hh> …`: the bytes written to `OB[k]`, `OB[k+1]`, … -/
def obActions : Nat → List Byte → List HostAction
  | _, [] => []
  | k, b :: bs => .obWrite (BitVec.ofNat 13 k) b :: obActions (k + 1) bs

/-- R149, R150: one transfer: write the bytes, `TRANSACT`, then look at the result and emit it. -/
def transferActions (bytes : List Byte) : List HostAction :=
  obActions 0 bytes ++ [.command (encodeTransact bytes.length), .emit]

/-- R147: `BOOT`. Of its steps only `setcs 0` is a command to the core; a failure is fatal. -/
def bootActions : List HostAction := [.command (encodeSetcs false), .check, .ready]

/-- R182: after which failures the HOST owes `setcs 0`: those of a link request, unless the chip select is
known to be de-asserted. -/
def recoveryOwed (code : ECode) (css : Css) : Bool :=
  match code with
  | .eNone => false
  | .eCmd => false
  | .eLen => false
  | .eCsAssert => css != .deasserted
  | .eXchg => css != .deasserted
  | .eCsDeassert => css != .deasserted
  | .eCtl => css != .deasserted

/-- R182, R183: the HOST must issue `setcs 0` before it closes: after the failure that stands in `STATUS`, unless
that is the failure of the recovery itself, and after one that was acknowledged by another command. -/
def recoveryDue (s : State) : Bool :=
  match s.recovery with
  | .clear => s.err && recoveryOwed s.ecode s.css
  | .owed => true
  | .issued => false

/-- R182: what the HOST remembers when it issues a command: `setcs 0` is the recovery when one is due, but for
`BOOT`'s own; any other command acknowledges the failure and leaves the recovery owed. -/
def recoveryAfter (w : CommandWord) (s : State) : Recovery :=
  if recoveryDue s then
    if w = encodeSetcs false then if s.stage = .booting then .clear else .issued
    else .owed
  else .clear

/-- R182, R195: the reset input clears the record of the failure, and the recovery stays owed. DESIGN CHOICE (log
entry 33), where R182 and R197 are silent: a reset that abandons a running operation adds no duty, and a
recovery `setcs 0` that was issued counts as done, also when the reset abandons it. -/
def recoveryAfterReset (s : State) : Recovery := if recoveryDue s then .owed else .clear

/-- The HOST issues the command `w`: what it remembers of a recovery. -/
def noteCommand (w : CommandWord) (s : State) : State := { s with recovery := recoveryAfter w s }

/-- The HOST asserts the reset input: what it remembers of a recovery. -/
def noteReset (s : State) : State := { s with recovery := recoveryAfterReset s }

/-- R154: a failure that is fatal to the session: it stands in `STATUS`, or its recovery is still due. -/
def failureStands (s : State) : Bool := s.err || recoveryDue s

/-- R154, R182, R183: what the HOST does after a failure: the recovery when it is due, then `CLOSE`; nothing
is retried. -/
def recoveryActions (due : Bool) : List HostAction :=
  if due then [.command (encodeSetcs false), .close false] else [.close false]

/-- R148: `CSACTION b`: the action, then `CLOSE`; no `TRANSACT`. -/
def csActionActions (b : Bool) : List HostAction :=
  [.command (encodeSetcs b), .check, .close true]

/-- R149: `ONESHOT`. An oversized input is fatal and no command is issued. -/
def oneShotActions (input : List Byte) : List HostAction :=
  if Config.maxLen < input.length then [.close false]
  else transferActions input ++ [.close true]

/-- R150: a block length is in range when 1 ≤ `L` ≤ `MAXLEN`. -/
def blockLengthOk (l : Nat) : Bool := 1 ≤ l && l ≤ Config.maxLen

/-- R150, R151: one round of `INTERACTIVE L`. End-of-input between two blocks is the clean end; inside a
block it is fatal and no `TRANSACT` is issued for the partial block. -/
def interactiveActions (l : Nat) (input : List Byte) : List HostAction :=
  if input.length = 0 then [.close true]
  else if input.length < l then [.close false]
  else transferActions (input.take l) ++ [.start (input.drop l)]

/-- R154 (a), R150: whether the configuration is free of the error that is fatal before any device
interaction. -/
def configOk (cfg : Parameters) : Bool :=
  match cfg.mode with
  | .csAction _ => true
  | .oneShot => true
  | .interactive l => blockLengthOk l

/-- The HOST's next actions put before the ones it still has to do. -/
def doFirst (acts : List HostAction) (s : State) : State := { s with host := acts ++ s.host }

/-- R153: `CLOSE`: the device handle is released, no command goes to the core, and the HOST issues nothing
more. -/
def closeSession (success : Bool) (s : State) : State :=
  { s with hostState := .closed success, host := [], device := .notOpen, stage := .fresh }

/-- R154, R182: a fatal failure: only the recovery and `CLOSE` are left to do. -/
def failSession (s : State) : State :=
  { s with host := recoveryActions (recoveryDue s), stage := .failed }

/-- R154, R182: a fatal condition that is no failure of the core: the session closes at once, unless a recovery
is due before. -/
def endFailed (s : State) : State := if recoveryDue s then failSession s else closeSession false s

/-- R145, R146: nothing of a session is begun. -/
def untouched (s : State) : Bool :=
  s.hostState == .idle && s.device == .notOpen && s.stage == .fresh

/-- R154 (a): the start of a session, or of its `BOOT`: `t` where the configuration has no error; an error in it
is fatal, and the device is not touched. -/
def startUp (cfg : Parameters) (t s : State) : Host.Outcome State Fault Refusal :=
  if untouched s then
    if configOk cfg then .next t else .next (endFailed s)
  else .refused .sessionOrder

/-- R145, R146, R156: a session begins: configuration, `BOOT`, then the sequence of the configured mode. -/
def hostSession (cfg : Parameters) (input : List Byte) (s : State) :
    Host.Outcome State Fault Refusal :=
  startUp cfg (doFirst [.boot, .start input] s) s

/-- R147 (1) to (3): `BOOT` begins in `Idle`; the device is open before its `setcs 0` (R199 (a)). -/
def hostBoot (cfg : Parameters) (s : State) : Host.Outcome State Fault Refusal :=
  startUp cfg (doFirst bootActions { s with device := .opened, stage := .booting }) s

/-- R147 (4): what `BOOT` has reached when its `setcs 0` is done: the open device and the de-asserted
baseline. -/
def baselineForced (s : State) : Bool :=
  s.hostState == .idle && s.device == .opened && s.stage == .booting && s.done && s.css == .deasserted

/-- R147 (5), (6): `DeviceReady` is reached, only from a `BOOT` whose `setcs 0` succeeded. -/
def hostReady (s : State) : Host.Outcome State Fault Refusal :=
  if baselineForced s then
    .next { s with hostState := .deviceReady, device := .jtagSelected, stage := .fresh }
  else .refused .sessionOrder

/-- R146: the sequence of the mode can begin. -/
def mayStart (s : State) : Bool := s.hostState == .deviceReady && s.stage == .fresh

/-- R150: the next round of `INTERACTIVE L` can begin: the first one, or one more. -/
def mayLoop (s : State) : Bool :=
  mayStart s || (s.hostState == .interactiveLoop && s.stage == .finished)

/-- R149: where an input of `ONESHOT` leaves the sequence. -/
def oneShotStage (input : List Byte) : SessionStage :=
  if Config.maxLen < input.length then .failed else .transferring

/-- R150, R151: where what is left of the input leaves a round of `INTERACTIVE L`. -/
def roundStage (l : Nat) (input : List Byte) : SessionStage :=
  if input.length = 0 then .finished
  else if input.length < l then .failed
  else .transferring

/-- R146, R148 to R150: the sequence of the configured mode, from `DeviceReady`; the rounds of `INTERACTIVE` go
on from `InteractiveLoop`. R154: a failure that stands is fatal here too. A block length out of range is fatal
at start-up (`startUp`), so no run meets it here; a state that did would close the session as failed. -/
def hostStart (cfg : Parameters) (input : List Byte) (s : State) :
    Host.Outcome State Fault Refusal :=
  match cfg.mode with
  | .csAction b =>
    if mayStart s then
      if failureStands s then .next (failSession s)
      else .next (doFirst (csActionActions b) { s with stage := .acting })
    else .refused .sessionOrder
  | .oneShot =>
    if mayStart s then
      if failureStands s then .next (failSession s)
      else .next (doFirst (oneShotActions input)
        { s with hostState := .oneShotTransfer, stage := oneShotStage input })
    else .refused .sessionOrder
  | .interactive l =>
    if mayLoop s then
      if failureStands s then .next (failSession s)
      else if blockLengthOk l then
        .next (doFirst (interactiveActions l input)
          { s with hostState := .interactiveLoop, stage := roundStage l input })
      else .next (closeSession false s)
    else .refused .sessionOrder

/-- R154: the HOST looks at `STATUS` after a command. -/
def hostCheck (s : State) : State :=
  if s.err then failSession s
  else if s.done && s.stage == .acting then { s with stage := .finished }
  else s

/-- R202: the response, when every byte of it has a specified value. -/
def State.responseBytes (s : State) : Option (List Byte) :=
  (List.range s.ilen.toNat).mapM s.response

/-- R149, R150, R202: the HOST looks at `STATUS` after the transfer of its session and emits
`IB[0..ILEN-1]`. DESIGN CHOICE (log entry 32): the "read `IB`, emit" of R82 is this one action, which takes
the bytes past the read port, so `rdata` stays. -/
def hostEmit (s : State) : Host.Outcome State Fault Refusal :=
  if s.err then .next (failSession s)
  else if s.stage == .transferring then
    if s.done && s.ibvalid then
      match s.responseBytes with
      | some bytes => .next { s with emitted := s.emitted ++ [bytes], stage := .finished }
      | none => .refused .unspecifiedRead
    else .refused .unspecifiedRead
  else .refused .sessionOrder

/-- R146: the HOST may close. As failed: at any moment, as every fatal condition leads to `Closed`. In success:
when the sequence of the mode is finished. -/
def mayClose (success : Bool) (s : State) : Bool :=
  match s.hostState, success with
  | .closed _, _ => false
  | _, false => true
  | .idle, true => false
  | _, true => s.stage == .finished

/-- R154, R182: a failure stands in the way of this `CLOSE`: in success no failure may stand, as failed none whose
recovery is due. -/
def closeBlocked (success : Bool) (s : State) : Bool :=
  if success then failureStands s else recoveryDue s

/-- R146, R153, R182: `CLOSE`; where a failure stands in the way it is dealt with first. -/
def hostClose (success : Bool) (s : State) : Host.Outcome State Fault Refusal :=
  if mayClose success s then
    if closeBlocked success s then .next (failSession s) else .next (closeSession success s)
  else .refused .sessionOrder

end Sys2Proof.Machine
end

