-- ==== Sys2Proof/Machine/Fetch.lean ====
section
/-! DEFINITION. What the next step does: which agent acts and which instruction its port selects
(spec/00_scope.md R7, spec/10_state.md R25 to R30, spec/42_transaction_framer.md R125). -/

namespace Sys2Proof.Machine

/-- What a step is. -/
inductive Fetched where
  /-- The instruction `i`, run at `s`: the state with the HOST's action consumed. -/
  | run (i : Instr) (s : State)
  /-- A step that runs no instruction: a port access, an illegal word, an own phase of the core. -/
  | other (o : Host.Outcome State Fault Refusal)

/-- R25, R26, R28, R55, R92, R195, R200: whether the HOST can do an action in a phase. The codec port,
the status port and the reset input are open in every phase; the HOST waits with all else until the
core is idle. -/
def hostMay (a : HostAction) (p : Phase) : Bool :=
  match a with
  | .codec _ => true
  | .readStatus => true
  | .reset => true
  | .yield => true
  | .obWrite _ _ => p == .idle
  | .obRead _ => p == .idle
  | .ibRead _ => p == .idle
  | .command _ => p == .idle
  | .session _ => p == .idle
  | .boot => p == .idle
  | .ready => p == .idle
  | .start _ => p == .idle
  | .check => p == .idle
  | .emit => p == .idle
  | .close _ => p == .idle

/-- R118, R122, R134: the core's step in a phase that issues no request: the phase's own work, and
nothing in `IDLE`, where the core waits for a command. -/
def ownPhase (s : State) : State :=
  match s.phase with
  | .revOut => revOutPhase s
  | .revIn => revInPhase s
  | .idle => s
  | .assert => s
  | .exchange => s
  | .deassert => s
  | .csOnly => s

/-- R16, R125: the step of the CORE and the LINK: the request that stands on the link port, or the
phase's own work. -/
def coreFetch (s : State) : Fetched :=
  match s.requestWord with
  | none => .other (.next (ownPhase s))
  | some r =>
    match decode (.l r) with
    | .ok i => .run i s
    | .error _ => .other (.refused .malformedRequest)

/-- R58, R77: the command word on the command port, consumed at acceptance. -/
def commandFetch (w : CommandWord) (s : State) : Fetched :=
  match decode (.c w) with
  | .ok i => .run i s
  | .error _ => .other (.next (illegalCommand s))

/-- R92: the operand on the codec port. -/
def codecFetch (b : Byte) (s : State) : Fetched :=
  match decode (.p b) with
  | .ok i => .run i s
  | .error _ => .other (.refused .malformedRequest)

/-- The step of the HOST: action `a`, already taken off its list. Only the start of a session and the sequence of
its mode read the configuration (R5). -/
def hostFetch (cfg : Parameters) (a : HostAction) (s : State) : Fetched :=
  match a with
  | .obWrite addr data => .other (.next (hostObWrite addr data s))
  | .obRead addr => .other (.next (hostObRead addr s))
  | .ibRead addr => .other (hostIbRead addr s)
  | .readStatus => .other (.next s)
  | .codec b => codecFetch b s
  | .command w => commandFetch w (noteCommand w s)
  | .reset => .other (.next (coreReset (noteReset s)))
  | .yield => coreFetch s
  | .session input => .other (hostSession cfg input s)
  | .boot => .other (hostBoot cfg s)
  | .ready => .other (hostReady s)
  | .start input => .other (hostStart cfg input s)
  | .check => .other (.next (hostCheck s))
  | .emit => .other (hostEmit s)
  | .close success => .other (hostClose success s)

/-- The next step: the HOST's, when it has an action that the phase lets it do; else the CORE's and the
LINK's. -/
def fetch (cfg : Parameters) (s : State) : Fetched :=
  match s.host with
  | [] => coreFetch s
  | a :: rest => if hostMay a s.phase then hostFetch cfg a { s with host := rest } else coreFetch s

/-- The phase in which the core issues a link request of a kind (R72, R125). -/
def phaseOfKind (kind : BitVec 2) : Phase :=
  if kind = 0#2 then .assert
  else if kind = 1#2 then .deassert
  else if kind = 2#2 then .exchange
  else .idle

/-- A word of the opcode table placed where `fetch` reads its next instruction (log entry 9): a codec
operand or a command word as the HOST's next action; a link request by the phase that issues it, with
`LEN` giving the bit count of an exchange. -/
def placeWord (s : State) (nbits w : Nat) : State :=
  if nbits = 8 then { s with host := .codec (BitVec.ofNat 8 w) :: s.host }
  else if nbits = 16 then
    { s with host := .command (BitVec.ofNat 16 w) :: s.host, phase := .idle, waiting := false }
  else
    { s with
      host := .yield :: s.host
      phase := phaseOfKind ((BitVec.ofNat 18 w).extractLsb' 16 2)
      waiting := false
      len := if (BitVec.ofNat 18 w).extractLsb' 16 2 = 2#2 then (BitVec.ofNat 18 w).extractLsb' 3 13
        else s.len }

end Sys2Proof.Machine
end

