-- ==== Sys2Proof/Machine/Step.lean ====
section
/-! DEFINITION. One step of the machine. -/

namespace Sys2Proof.Machine

/-- R5: one step under its parameters, which are no state: the instruction that stands on
a port is run; any other step is what `fetch` says. -/
def stepWith (cfg : Parameters) (s : State) : Host.Outcome State Fault Refusal :=
  match fetch cfg s with
  | .run i t => exec i t
  | .other o => o

/-- One step of the machine: under its one set of parameters, a free value (log entry 37). -/
def step (s : State) : Host.Outcome State Fault Refusal := stepWith Config.parameters s

/-- The word `w` of the opcode table, `nbits` wide, placed where `step` fetches its next instruction. -/
def State.withFetchWord (s : State) (nbits w : Nat) : State := placeWord s nbits w

end Sys2Proof.Machine
end

