-- ==== Sys2Proof/Machine/Serial.lean ====
section
/-! DEFINITION. The serial view of an exchange: `SER`, `DES` and the streams `SO`, `SI`
(spec/20_memory.md R43 to R46, R60; spec/42_transaction_framer.md R131, R132). The byte arrays are
normative (R60) and do not depend on this file. -/

namespace Sys2Proof.Machine

/-- R43: the bit of a byte that is the `j`-th of its eight in time. -/
def bitInTime (o : BitOrder) (j : Nat) : Nat :=
  match o with
  | .lsbFirst => j
  | .msbFirst => 7 - j

/-- R44: bit `t` of the stream of a byte array: bit `t mod 8` of byte `t div 8`, in the link's order. -/
def streamBit (o : BitOrder) (bytes : List Byte) (t : Nat) : Bool :=
  (bytes.getD (t / 8) 0).getLsbD (bitInTime o (t % 8))

/-- R44, R131: `SER`: the stream of a byte array, first bit in time first. -/
def ser (o : BitOrder) (bytes : List Byte) : List Bool :=
  (List.range (8 * bytes.length)).map (streamBit o bytes)

/-- R45: the byte made of the eight stream bits from `8 * k` on. -/
def streamByte (o : BitOrder) (si : List Bool) (k : Nat) : Byte :=
  BitVec.ofFnLE fun j : Fin 8 => si.getD (8 * k + bitInTime o j) false

/-- R45, R132: `DES`: the byte array of a stream. -/
def des (o : BitOrder) (si : List Bool) : List Byte :=
  (List.range (si.length / 8)).map (streamByte o si)

/-- R44: `SO`, the stream of the exchange that the core requests. -/
def State.so (s : State) : List Bool := ser Config.linkBitOrder s.txBytes

/-- R45: `SI`, the stream whose `DES` is the returned array. -/
def siOf (rx : List Byte) : List Bool := ser Config.linkBitOrder rx

end Sys2Proof.Machine
end

