-- ==== Sys2Proof/Safety.lean ====
section
/-! DEFINITION. What counts as a safe run, in the terms the statements use: the invariant of the machine,
what "unchanged" means, and the HOST's duties (spec/70_reset_and_hazards.md R199 to R204). -/

namespace Sys2Proof.Machine

/-- R5: the machine under a configuration; `Sys2Proof.core` is the one under `Config.parameters`. -/
def coreWith (cfg : Parameters) : Host.Core := { Sys2Proof.core with step := stepWith cfg }

/-- R5: `n` steps of the machine under one configuration, which no step of the run changes. -/
def runSteps (cfg : Parameters) (n : Nat) (s : State) : Host.Outcome State Fault Refusal :=
  Host.Core.run (coreWith cfg) n s

/-- The phases that a run of `n` steps goes through, the first state's included. -/
def phaseTrace (cfg : Parameters) : Nat → State → List Phase
  | 0, s => [s.phase]
  | n + 1, s =>
    match stepWith cfg s with
    | .next t => s.phase :: phaseTrace cfg n t
    | .fault _ => [s.phase]
    | .refused _ => [s.phase]

/-- R134: what `LINK_ANSWERS` assumes of a LINK: wherever the run from `s` comes to a link request, the LINK has an
answer to it, at once or after it was silent for some steps. -/
def LinkAnswers (cfg : Parameters) (s : State) : Prop :=
  ∀ n t, runSteps cfg n s = .next t → t.request.isSome = true → ∃ a, LinkInput.answer a ∈ t.link

/-- R5, D19: the LINK is one that the parameter `LINK_ANSWERS` admits: every LINK when it is not assumed. -/
def LinkAdmitted (cfg : Parameters) (s : State) : Prop := cfg.linkAnswers = true → LinkAnswers cfg s

/-- The HOST takes no step here: it has nothing to do, or waits for `BUSY` = 0. -/
def hostWaits (s : State) : Bool :=
  match s.host with
  | [] => true
  | a :: _ => !hostMay a s.phase

/-- The first of these actions is not one that the HOST does while `BUSY` = 1 (R200). -/
def blocking (acts : List HostAction) : Bool :=
  match acts with
  | [] => true
  | a :: _ => !hostMay a .assert

/-- Every byte of every buffer reads as before. -/
def BuffersKept (s t : State) : Prop :=
  ∀ (sp : Space) (k : Nat), (t.store sp).read k = (s.store sp).read k

/-- Every byte of one buffer reads as before. -/
def BufferKept (sp : Space) (s t : State) : Prop :=
  ∀ k : Nat, (t.store sp).read k = (s.store sp).read k

/-- No byte of a buffer has a specified value (R32). -/
def BufferUnspecified (sp : Space) (s : State) : Prop := ∀ k : Nat, (s.store sp).read k = none

/-- R201: every byte of `OB[0..n-1]` is written: the HOST's duty before `TRANSACT n`. -/
def OutboundWritten (s : State) (n : Nat) : Prop := s.ob.filled n = true

/-- R29, R30: the two link ports. -/
inductive LinkPort where
  | controlLine
  | exchange
deriving DecidableEq, Repr

/-- R199: the premise LINK_READY of a link port. (a) For the control line: one device is open and the HOST
holds its handle. (b) For the exchange, in addition: the JTAG interface is the selected one. It is a
premise on the LINK's answers only; no meaning reads it (log entry 19). -/
def LinkReady (p : LinkPort) (s : State) : Prop :=
  match p with
  | .controlLine => s.device = .opened ∨ s.device = .jtagSelected
  | .exchange => s.device = .jtagSelected

/-- R154, R182: no failure stands: `STATUS` shows none, and none waits for its recovery. -/
def NoFailure (s : State) : Prop := s.err = false ∧ s.recovery ≠ .owed

/-- R156: the configured mode is `INTERACTIVE L` with `L` = `l`, in the range of R150. -/
def Interactive (cfg : Parameters) (l : Nat) : Prop :=
  cfg.mode = .interactive l ∧ 1 ≤ l ∧ l ≤ Config.maxLen

/-- R154 (a), R150: the configuration error: an interactive block length out of range. -/
def BadConfig (cfg : Parameters) : Prop :=
  ∃ l, cfg.mode = .interactive l ∧ (l = 0 ∨ Config.maxLen < l)

/-- R150: the HOST is about to collect a block: the first of its session, or one more. -/
def AwaitsBlock (s : State) : Prop :=
  NoFailure s ∧
  ((s.hostState = .deviceReady ∧ s.stage = .fresh) ∨
  (s.hostState = .interactiveLoop ∧ s.stage = .finished))

/-- R147: what `DeviceReady` is reached from, and only from: a `BOOT` under way in `Idle`, with the device
open, whose `setcs 0` ended in success. -/
def BootDone (s : State) : Prop :=
  s.hostState = .idle ∧ s.device = .opened ∧ s.stage = .booting ∧ s.done = true ∧ s.css = .deasserted

/-- R146: the edges between the states of the HOST, from `s.hostState` to `t.hostState`, and when each is
taken. R156: the configured mode says which transfer state is entered. R182: none leads to `Closed` while a
recovery is due. -/
def HostEdge (cfg : Parameters) (s t : State) : Prop :=
  (BootDone s ∧ t.hostState = .deviceReady ∧ t.device = .jtagSelected ∧ t.stage = .fresh) ∨
  (s.hostState = .deviceReady ∧ s.stage = .fresh ∧ cfg.mode = .oneShot ∧
    t.hostState = .oneShotTransfer) ∨
  (s.hostState = .deviceReady ∧ s.stage = .fresh ∧ (∃ l, Interactive cfg l) ∧
    t.hostState = .interactiveLoop) ∨
  ((s.hostState = .deviceReady ∨ s.hostState = .oneShotTransfer ∨
      s.hostState = .interactiveLoop) ∧
    s.stage = .finished ∧ NoFailure s ∧ t.hostState = .closed true ∧ t.device = .notOpen ∧ t.host = []) ∨
  ((∀ b, s.hostState ≠ .closed b) ∧ recoveryDue s = false ∧
    t.hostState = .closed false ∧ t.device = .notOpen ∧ t.host = [])

/-- R204: the de-asserted baseline between two transactions. -/
def Baseline (s : State) : Prop := s.phase = .idle ∧ s.css = .deasserted

/-- R101, R108: the level of a de-asserted chip select's line is the other one. -/
def lineOf (css : Css) (l : LineLevel) : Prop :=
  match css with
  | .unknown => True
  | .asserted => l = Config.ctlClearLevel
  | .deasserted => l ≠ Config.ctlClearLevel

/-- The last control-line event of a history. -/
def lastControl : List LinkEvent → Option LinkEvent
  | [] => none
  | .ctlClear r :: rest => (lastControl rest).or (some (.ctlClear r))
  | .ctlSet r :: rest => (lastControl rest).or (some (.ctlSet r))
  | .xchg _ _ _ :: rest => lastControl rest

/-- R170: the phase that a failure of a code is recorded with. -/
def failPhase : ECode → Phase
  | .eNone => .idle
  | .eCmd => .idle
  | .eLen => .idle
  | .eCsAssert => .assert
  | .eXchg => .exchange
  | .eCsDeassert => .deassert
  | .eCtl => .csOnly

/-- The three buffers have their canonical form (R40, R41). -/
def BuffersWf (s : State) : Prop := s.ob.wf = true ∧ s.ib.wf = true ∧ s.tx.wf = true

/-- R17: at most one of `DONE`, `ERR` is 1, and both are 0 while `BUSY` = 1. -/
def FlagsExclusive (s : State) : Prop :=
  ¬(s.done = true ∧ s.err = true) ∧ (s.busy = true → s.done = false ∧ s.err = false)

/-- R18, R170: `ECODE` and `FPH` are 0 unless `ERR` = 1, and then a pair of the table of R170. -/
def FailureRecorded (s : State) : Prop :=
  (s.err = false → s.ecode = .eNone ∧ s.fph = .idle) ∧
  (s.err = true → s.ecode ≠ .eNone ∧ s.fph = failPhase s.ecode)

/-- R12, R17, R19: `IBVALID` = 1 only outside a `TRANSACT`, with every byte below `ILEN` specified;
`ILEN` is 0 when `IBVALID` = 0. -/
def ResponseHeld (s : State) : Prop :=
  (s.ibvalid = true → (s.phase = .idle ∨ s.phase = .csOnly) ∧ s.ib.filled s.ilen.toNat = true) ∧
  (s.ibvalid = false → s.ilen = 0)

/-- R20, R119: in `EXCHANGE` the array for the LINK is the reversed `OB[0..LEN-1]`. -/
def OutboundReversed (s : State) : Prop :=
  s.phase = .exchange →
    ∀ k, k < s.len.toNat → s.tx.read k = some (rev8 (s.readByte .ob k))

/-- R117, R119, R121: where `CSS` stands in the phases of a `TRANSACT`. -/
def SelectedInPhase (s : State) : Prop :=
  (s.phase = .revOut ∨ s.phase = .exchange ∨ s.phase = .deassert → s.css = .asserted) ∧
  (s.phase = .revIn → s.css = .deasserted)

/-- R15, R23: `CSS` is what the last answer to a control-line request says, and `LINE` agrees: the model's
choice while a control-line request is outstanding (log entry 31). -/
def ShadowTrue (s : State) : Prop :=
  (s.css = .asserted → lastControl s.linkLog = some (.ctlClear (.ok []))) ∧
  (s.css = .deasserted → lastControl s.linkLog = some (.ctlSet (.ok []))) ∧
  lineOf s.css s.line

/-- R134: a request can be outstanding only in a phase that issues one. -/
def WaitingHasRequest (s : State) : Prop := s.waiting = true → s.request.isSome = true

/-- R24, R146, R147, R153, R199: what the HOST holds in each state of its session: the device is open from
`BOOT` on, the JTAG interface is selected from `DeviceReady` on, and after `CLOSE` there is no device, nothing
left to do and no recovery due (R182). R5, R154 (a), R156: no device is open under a configuration that has an
error, and each state of a sequence is one of the configured mode. -/
def SessionHeld (cfg : Parameters) (s : State) : Prop :=
  (s.device ≠ .notOpen → ¬BadConfig cfg) ∧
  match s.hostState with
  | .idle =>
    (s.device = .notOpen ∧ (s.stage = .fresh ∨ s.stage = .failed)) ∨
    (s.device = .opened ∧ (s.stage = .booting ∨ s.stage = .failed))
  | .deviceReady =>
    s.device = .jtagSelected ∧
      (s.stage = .fresh ∨ s.stage = .failed ∨
        ((s.stage = .acting ∨ s.stage = .finished) ∧ ∃ b, cfg.mode = .csAction b))
  | .oneShotTransfer =>
    s.device = .jtagSelected ∧ cfg.mode = .oneShot ∧
      (s.stage = .transferring ∨ s.stage = .finished ∨ s.stage = .failed)
  | .interactiveLoop =>
    s.device = .jtagSelected ∧ (∃ l, Interactive cfg l) ∧
      (s.stage = .transferring ∨ s.stage = .finished ∨ s.stage = .failed)
  | .closed _ => s.device = .notOpen ∧ s.stage = .fresh ∧ s.host = [] ∧ s.phase = .idle ∧
    recoveryDue s = false

/-- The invariant of the machine under a configuration. -/
structure Inv (cfg : Parameters) (s : State) : Prop where
  buffersWf : BuffersWf s
  flags : FlagsExclusive s
  failure : FailureRecorded s
  response : ResponseHeld s
  outbound : OutboundReversed s
  selected : SelectedInPhase s
  shadow : ShadowTrue s
  waiting : WaitingHasRequest s
  session : SessionHeld cfg s

/-- What the answer `ok` to a control-line request leaves (R102, R103): the next phase, or the end of a
`SETCS`; everything else as before (`CSEN` too: log entry 35). -/
def ControlSucceeded (v : ControlVerb) (rest : List LinkInput) (s t : State) : Prop :=
  t.css = (match v with | .clear => .asserted | .set => .deasserted) ∧
  (match v with
    | .clear => t.line = Config.ctlClearLevel
    | .set => t.line ≠ Config.ctlClearLevel) ∧
  t.linkLog = s.linkLog ++ [controlEvent v (.ok [])] ∧
  t.link = rest ∧ t.waiting = false ∧
  (s.phase = .assert → t.phase = .revOut ∧ t.done = s.done) ∧
  (s.phase = .deassert → t.phase = .revIn ∧ t.done = s.done) ∧
  (s.phase = .csOnly → t.phase = .idle ∧ t.done = true) ∧
  BuffersKept s t ∧
  t = { s with
    css := t.css, line := t.line, linkLog := t.linkLog, link := t.link, waiting := t.waiting,
    phase := t.phase, done := t.done }

/-- R170: the code of a failed control-line request in the phase that issued it. -/
def controlCode (p : Phase) : ECode :=
  match p with
  | .assert => .eCsAssert
  | .deassert => .eCsDeassert
  | .csOnly => .eCtl
  | .idle => .eNone
  | .revOut => .eNone
  | .exchange => .eNone
  | .revIn => .eNone

/-- What the answer `fail(e)` to a control-line request leaves (R102, R103, R180). -/
def ControlFailed (v : ControlVerb) (e : LinkError) (rest : List LinkInput) (s t : State) : Prop :=
  t.css = .unknown ∧
  t.linkLog = s.linkLog ++ [controlEvent v (.fail e)] ∧
  t.link = rest ∧ t.waiting = false ∧
  t.err = true ∧ t.done = false ∧
  t.ecode = controlCode s.phase ∧ t.fph = s.phase ∧ t.lerr = e ∧ t.phase = .idle ∧
  (s.phase = .csOnly → t.ibvalid = s.ibvalid ∧ t.ilen = s.ilen ∧ BufferKept .ib s t) ∧
  (s.phase ≠ .csOnly → t.ibvalid = false ∧ t.ilen = 0 ∧ BufferUnspecified .ib t) ∧
  BufferKept .ob s t ∧ BufferKept .tx s t ∧
  t = { s with
    css := t.css, line := t.line, linkLog := t.linkLog, link := t.link, waiting := t.waiting,
    err := t.err, done := t.done, ecode := t.ecode, fph := t.fph, lerr := t.lerr,
    phase := t.phase, ibvalid := t.ibvalid, ilen := t.ilen, ib := t.ib, draws := t.draws }

/-- What a failed exchange leaves (R120, R174, R180): the chip select and its line as they were. -/
def ExchangeFailed (e : LinkError) (rest : List LinkInput) (s t : State) : Prop :=
  t.ecode = .eXchg ∧ t.fph = .exchange ∧ t.lerr = e ∧ t.err = true ∧ t.done = false ∧
  t.phase = .idle ∧ t.request = none ∧
  t.css = s.css ∧ t.line = s.line ∧ t.len = s.len ∧
  t.ibvalid = false ∧ t.ilen = 0 ∧ BufferUnspecified .ib t ∧
  t.linkLog = s.linkLog ++ [.xchg s.txBytes s.bitcnt (.fail e)] ∧
  t.link = rest ∧ t.waiting = false ∧
  BufferKept .ob s t ∧ BufferKept .tx s t ∧
  t = { s with
    ecode := t.ecode, fph := t.fph, lerr := t.lerr, err := t.err, done := t.done, phase := t.phase,
    ibvalid := t.ibvalid, ilen := t.ilen, ib := t.ib, linkLog := t.linkLog, link := t.link,
    waiting := t.waiting, t := t.t, draws := t.draws }

/-- R125: an operation ended in success. -/
def Succeeded (t : State) : Prop := t.done = true ∧ t.err = false

/-- R125: an operation ended in failure with a code. -/
def Failed (c : ECode) (t : State) : Prop := t.err = true ∧ t.done = false ∧ t.ecode = c

/-- R17: no result is shown while an operation runs. -/
def Running (t : State) : Prop := t.done = false ∧ t.err = false

/-- R25, R58: the word that the HOST gives to the command port stands for `i`. -/
def Accepts (s : State) (i : Instr) : Prop :=
  ∃ w rest, s.host = .command w :: rest ∧ decode (.c w) = .ok i

/-- The step is the CORE's and the LINK's: the HOST waits, or leaves it to them. -/
def CoreTurn (s : State) : Prop := hostWaits s = true ∨ ∃ rest, s.host = .yield :: rest

/-- R125: the event "answer `ok`". -/
def AnsweredOk (s : State) : Prop := ∃ rx rest, nextAnswer s.link = some (.ok rx, rest)

/-- R125: the event "answer `fail(e)`". -/
def AnsweredFail (s : State) : Prop := ∃ e rest, nextAnswer s.link = some (.fail e, rest)

/-- R125, R133: the event "answer `ok(rx)`" of an exchange: the answer has exactly `LEN` bytes. -/
def ExchangedOk (s : State) : Prop :=
  ∃ rx rest, nextAnswer s.link = some (.ok rx, rest) ∧ rx.length = s.len.toNat

/-- R125, R133: the event "answer `fail(e)`" of an exchange; an answer of any other length is one. -/
def ExchangedFail (s : State) : Prop :=
  AnsweredFail s ∨ ∃ rx rest, nextAnswer s.link = some (.ok rx, rest) ∧ rx.length ≠ s.len.toNat

/-- R125: the rows of the phase table that change the phase in a step of the CORE and the LINK: from, event,
to, and how the operation ends. -/
def CoreRow (s t : State) : Prop :=
  (s.phase = .csOnly ∧ AnsweredOk s ∧ t.phase = .idle ∧ Succeeded t) ∨
  (s.phase = .csOnly ∧ AnsweredFail s ∧ t.phase = .idle ∧ Failed .eCtl t) ∨
  (s.phase = .assert ∧ AnsweredOk s ∧ t.phase = .revOut ∧ Running t) ∨
  (s.phase = .assert ∧ AnsweredFail s ∧ t.phase = .idle ∧ Failed .eCsAssert t) ∨
  (s.phase = .revOut ∧ t.phase = .exchange ∧ Running t) ∨
  (s.phase = .exchange ∧ ExchangedOk s ∧ t.phase = .deassert ∧ Running t) ∨
  (s.phase = .exchange ∧ ExchangedFail s ∧ t.phase = .idle ∧ Failed .eXchg t) ∨
  (s.phase = .deassert ∧ AnsweredOk s ∧ t.phase = .revIn ∧ Running t) ∨
  (s.phase = .deassert ∧ AnsweredFail s ∧ t.phase = .idle ∧ Failed .eCsDeassert t) ∨
  (s.phase = .revIn ∧ t.phase = .idle ∧ Succeeded t)

/-- R125: the rows of the phase table that change the phase. -/
def PhaseRow (s t : State) : Prop :=
  (s.phase = .idle ∧ (∃ en, Accepts s (.setcs en)) ∧ t.phase = .csOnly ∧ Running t) ∨
  (s.phase = .idle ∧ (∃ n, n ≤ Config.maxLen ∧ Accepts s (.transact n)) ∧ t.phase = .assert ∧
    Running t) ∨
  (CoreTurn s ∧ CoreRow s t)

/-- R125, R134: no event of such a row: no legal command in `IDLE`; in another phase the step is the HOST's, or
the answer that the phase waits for has not come. -/
def NoPhaseEvent (s : State) : Prop :=
  (s.phase = .idle ∧ ∀ i, ¬Accepts s i) ∨
  (s.phase ≠ .idle ∧ (¬CoreTurn s ∨ (s.request.isSome = true ∧ nextAnswer s.link = none)))

/-- The HOST issues `SETCS en` (0x2000 | `en`, R75) to an idle core and then waits for its end. -/
def StartsSetcs (s : State) (en : Bool) (rest : List HostAction) : Prop :=
  s.phase = .idle ∧ s.host = .command (if en then 0x2001#16 else 0x2000#16) :: rest ∧
  blocking rest = true

/-- The HOST issues `TRANSACT n` (0x4000 | `n`, R75) to an idle core and then waits for its end. -/
def StartsTransact (s : State) (n : Nat) (rest : List HostAction) : Prop :=
  s.phase = .idle ∧ s.host = .command (BitVec.ofNat 16 (0x4000 + n)) :: rest ∧
  n ≤ Config.maxLen ∧ blocking rest = true

/-- R130: the byte array of an exchange of `n` bytes: `tx[k]` = `rev8(OB[k])`. -/
def outArray (s : State) (n : Nat) : List Byte := (List.range n).map fun k => rev8 (s.readByte .ob k)

/-- R123: what a `TRANSACT n` that ended in failure leaves of the response: nothing. -/
def NoResponse (n : Nat) (t : State) : Prop :=
  t.err = true ∧ t.done = false ∧ t.ibvalid = false ∧ t.ilen = 0 ∧ t.len.toNat = n ∧
  t.phase = .idle ∧ t.request = none ∧ BufferUnspecified .ib t

/-- R115, R123: what a `TRANSACT n` that ended in success leaves; `rx` is what the LINK returned. -/
def Responded (n : Nat) (rx : List Byte) (t : State) : Prop :=
  t.done = true ∧ t.err = false ∧ t.ecode = .eNone ∧ t.fph = .idle ∧ t.ibvalid = true ∧
  t.ilen.toNat = n ∧ t.len.toNat = n ∧ t.phase = .idle ∧ t.css = .deasserted ∧
  (∀ k, k < n → t.ib.read k = (rx[k]?).map rev8) ∧ (∀ k, n ≤ k → t.ib.read k = none)

/-- R126, R130: the three events of a transfer of a block that succeeds; `rx` is what the LINK returned. -/
def transferEvents (block rx : List Byte) : List LinkEvent :=
  [.ctlClear (.ok []), .xchg (block.map rev8) (BitVec.ofNat 16 (8 * block.length)) (.ok rx),
    .ctlSet (.ok [])]

/-- What a LINK that answers at once gives to such a transfer. -/
def transferAnswers (rx : List Byte) : List LinkInput :=
  [.answer (.ok []), .answer (.ok rx), .answer (.ok [])]

/-- R93 (4): the number of 1 bits of a byte. -/
def onesCount (b : Byte) : Nat := ((List.range 8).map fun i => (b.getLsbD i).toNat).sum

/-- spec/95_test_vectors.md section 2.1: the full `rev8` table, as the spec prints it, one row for each
high nibble. -/
def reversalTable : List Byte :=
  [0x00, 0x80, 0x40, 0xC0, 0x20, 0xA0, 0x60, 0xE0, 0x10, 0x90, 0x50, 0xD0, 0x30, 0xB0, 0x70, 0xF0] ++
  [0x08, 0x88, 0x48, 0xC8, 0x28, 0xA8, 0x68, 0xE8, 0x18, 0x98, 0x58, 0xD8, 0x38, 0xB8, 0x78, 0xF8] ++
  [0x04, 0x84, 0x44, 0xC4, 0x24, 0xA4, 0x64, 0xE4, 0x14, 0x94, 0x54, 0xD4, 0x34, 0xB4, 0x74, 0xF4] ++
  [0x0C, 0x8C, 0x4C, 0xCC, 0x2C, 0xAC, 0x6C, 0xEC, 0x1C, 0x9C, 0x5C, 0xDC, 0x3C, 0xBC, 0x7C, 0xFC] ++
  [0x02, 0x82, 0x42, 0xC2, 0x22, 0xA2, 0x62, 0xE2, 0x12, 0x92, 0x52, 0xD2, 0x32, 0xB2, 0x72, 0xF2] ++
  [0x0A, 0x8A, 0x4A, 0xCA, 0x2A, 0xAA, 0x6A, 0xEA, 0x1A, 0x9A, 0x5A, 0xDA, 0x3A, 0xBA, 0x7A, 0xFA] ++
  [0x06, 0x86, 0x46, 0xC6, 0x26, 0xA6, 0x66, 0xE6, 0x16, 0x96, 0x56, 0xD6, 0x36, 0xB6, 0x76, 0xF6] ++
  [0x0E, 0x8E, 0x4E, 0xCE, 0x2E, 0xAE, 0x6E, 0xEE, 0x1E, 0x9E, 0x5E, 0xDE, 0x3E, 0xBE, 0x7E, 0xFE] ++
  [0x01, 0x81, 0x41, 0xC1, 0x21, 0xA1, 0x61, 0xE1, 0x11, 0x91, 0x51, 0xD1, 0x31, 0xB1, 0x71, 0xF1] ++
  [0x09, 0x89, 0x49, 0xC9, 0x29, 0xA9, 0x69, 0xE9, 0x19, 0x99, 0x59, 0xD9, 0x39, 0xB9, 0x79, 0xF9] ++
  [0x05, 0x85, 0x45, 0xC5, 0x25, 0xA5, 0x65, 0xE5, 0x15, 0x95, 0x55, 0xD5, 0x35, 0xB5, 0x75, 0xF5] ++
  [0x0D, 0x8D, 0x4D, 0xCD, 0x2D, 0xAD, 0x6D, 0xED, 0x1D, 0x9D, 0x5D, 0xDD, 0x3D, 0xBD, 0x7D, 0xFD] ++
  [0x03, 0x83, 0x43, 0xC3, 0x23, 0xA3, 0x63, 0xE3, 0x13, 0x93, 0x53, 0xD3, 0x33, 0xB3, 0x73, 0xF3] ++
  [0x0B, 0x8B, 0x4B, 0xCB, 0x2B, 0xAB, 0x6B, 0xEB, 0x1B, 0x9B, 0x5B, 0xDB, 0x3B, 0xBB, 0x7B, 0xFB] ++
  [0x07, 0x87, 0x47, 0xC7, 0x27, 0xA7, 0x67, 0xE7, 0x17, 0x97, 0x57, 0xD7, 0x37, 0xB7, 0x77, 0xF7] ++
  [0x0F, 0x8F, 0x4F, 0xCF, 0x2F, 0xAF, 0x6F, 0xEF, 0x1F, 0x9F, 0x5F, 0xDF, 0x3F, 0xBF, 0x7F, 0xFF]

end Sys2Proof.Machine
end

