-- ==== Sys2Proof/Certificates/Slice0/Obligations.lean ====
section
/-! DEFINITION. The statements for the provers. Each docstring names the rule of spec/ it formalises. -/

open Sys2Proof Sys2Proof.Machine

/-! ### Encodings (spec/30_encoding.md) -/

/-- R73, R75, R76: decode and encode agree on every well-formed instruction. -/
def Obligations.DecodeOfEncode : Prop :=
  ∀ i : Instr, WellFormed i = true → decode (encode i) = .ok i

/-- R73, R75, R76: every word that decodes is the one encoding of a well-formed instruction. -/
def Obligations.EncodeOfDecode : Prop :=
  ∀ (w : PortWord) (i : Instr), decode w = .ok i → encode i = w ∧ WellFormed i = true

/-- spec/95_test_vectors.md section 2.7: the listed words decode to what they stand for. -/
def Obligations.ListedWordsDecode : Prop :=
  decode (.c 0x2000#16) = .ok (.setcs false) ∧
  decode (.c 0x2001#16) = .ok (.setcs true) ∧
  decode (.c 0x4000#16) = .ok (.transact 0) ∧
  decode (.c 0x4004#16) = .ok (.transact 4) ∧
  decode (.c 0x5FFF#16) = .ok (.transact 8191) ∧
  decode (.l 0x00000#18) = .ok .ctlclr ∧
  decode (.l 0x10000#18) = .ok .ctlset ∧
  decode (.l 0x20000#18) = .ok (.xchg 0) ∧
  decode (.l 0x20020#18) = .ok (.xchg 32) ∧
  decode (.l 0x2FFF8#18) = .ok (.xchg 65528) ∧
  decode (.p 0x9F#8) = .ok (.rev8 0x9F)

/-- R77, R171: which command words are illegal, what an illegal one does when it is accepted, and that
the core's own requests are never malformed. Of what the HOST remembers of a recovery (log entry
33) nothing is said. -/
def Obligations.IllegalCommandsRejected : Prop :=
  (∀ w : CommandWord, (∃ e, decode (.c w) = .error e) ↔
    (w.toNat ≤ 0x1FFF ∨ (0x2002 ≤ w.toNat ∧ w.toNat ≤ 0x3FFF) ∨ 0x6000 ≤ w.toNat)) ∧
  (∀ (w : CommandWord) (s : State) (rest : List HostAction),
    s.phase = .idle → s.host = .command w :: rest → (∃ e, decode (.c w) = .error e) →
    ∃ t, step s = .next t ∧ t.phase = .idle ∧ t.done = false ∧ t.err = true ∧
      t.ecode = .eCmd ∧ t.fph = .idle ∧ t.request = none ∧ BuffersKept s t ∧
      t = { s with
        host := rest, done := t.done, err := t.err, ecode := t.ecode, fph := t.fph,
        lerr := t.lerr, draws := t.draws, recovery := t.recovery }) ∧
  (∀ (s : State) (r : RequestWord), s.requestWord = some r → ∃ i, decode (.l r) = .ok i)

/-- R25, R28, R58, R125: a step runs the instruction that stands decoded on a port: the command port of
an idle core, the codec port in every phase, and the link port in a phase that issues a request. With a
command the HOST remembers what it owes (R182; the field `recovery` is the model's own, log entry 33). -/
def Obligations.StepRunsDecodedInstruction : Prop :=
  (∀ (s : State) (w : CommandWord) (i : Instr) (rest : List HostAction),
    s.phase = .idle → s.host = .command w :: rest → decode (.c w) = .ok i →
    step s = exec i { s with host := rest, recovery := recoveryAfter w s }) ∧
  (∀ (s : State) (b : Byte) (i : Instr) (rest : List HostAction),
    s.host = .codec b :: rest → decode (.p b) = .ok i → step s = exec i { s with host := rest }) ∧
  (∀ (s : State) (r : RequestWord) (i : Instr),
    hostWaits s = true → s.requestWord = some r → decode (.l r) = .ok i → step s = exec i s) ∧
  (∀ (s : State) (r : RequestWord) (i : Instr) (rest : List HostAction),
    s.host = .yield :: rest → s.requestWord = some r → decode (.l r) = .ok i →
    step s = exec i { s with host := rest })

/-! ### The codec (spec/40_bitrev_codec.md) -/

/-- R90: bit `i` of the result is bit `7 - i` of the operand, for all 256 bytes. -/
def Obligations.Rev8ReversesBits : Prop :=
  ∀ b : Byte,
    (∀ i, i ≤ 7 → (rev8 b).getLsbD i = b.getLsbD (7 - i)) ∧
    (rev8 b).toNat = ((List.range 8).map fun i => (b.getLsbD i).toNat * 2 ^ (7 - i)).sum

/-- R93 (1) to (6): involution, bijection, the 16 fixed points, the bitwise operations and the number of
1 bits, the single bits, and the table of spec/95_test_vectors.md section 2.1. -/
def Obligations.Rev8Laws : Prop :=
  (∀ b : Byte, rev8 (rev8 b) = b) ∧
  Function.Bijective rev8 ∧
  (∀ b : Byte, rev8 b = b ↔ b ∈ [0x00#8, 0x18, 0x24, 0x3C, 0x42, 0x5A, 0x66, 0x7E, 0x81, 0x99,
    0xA5, 0xBD, 0xC3, 0xDB, 0xE7, 0xFF]) ∧
  (∀ a b : Byte, rev8 (a &&& b) = rev8 a &&& rev8 b ∧ rev8 (a ||| b) = rev8 a ||| rev8 b ∧
    rev8 (a ^^^ b) = rev8 a ^^^ rev8 b) ∧
  (∀ b : Byte, rev8 (~~~b) = ~~~(rev8 b) ∧ onesCount (rev8 b) = onesCount b) ∧
  (∀ i, i ≤ 7 → rev8 (0x01#8 <<< i) = 0x80#8 >>> i) ∧
  (∀ b : Byte, reversalTable[b.toNat]? = some (rev8 b))

/-- R92: `REV8 b` puts `rev8(b)` on the codec's output, in every phase, and changes nothing else; the
codec port runs it whatever `PHASE` holds. -/
def Obligations.Rev8Instruction : Prop :=
  (∀ b : Byte, decode (.p b) = .ok (.rev8 b)) ∧
  (∀ (b : Byte) (s : State), ∃ t, exec (.rev8 b) s = .next t ∧ t.revOut = rev8 b ∧
    BuffersKept s t ∧ t = { s with revIn := t.revIn }) ∧
  (∀ (b : Byte) (s : State) (rest : List HostAction), s.host = .codec b :: rest →
    ∃ t, step s = .next t ∧ t.revOut = rev8 b ∧ BuffersKept s t ∧
      t = { s with revIn := t.revIn, host := rest }) ∧
  rev8 0x00#8 = 0x00#8 ∧ rev8 0xFF#8 = 0xFF#8 ∧ rev8 0x01#8 = 0x80#8 ∧ rev8 0x80#8 = 0x01#8 ∧
  rev8 0x18#8 = 0x18#8 ∧ swapPairs 0x9F#8 = 0x6F#8 ∧ swapNibblePairs 0x6F#8 = 0x9F#8 ∧
  swapNibbles 0x9F#8 = 0xF9#8 ∧ rev8 0x9F#8 = 0xF9#8

/-- R94, R95: the general `REVBUF`: the bytes below `n` are the reversed source bytes as they stood
before, all other bytes are unchanged, and a partial overlap is refused. That a range outside the buffer
faults, and that two disjoint ranges of one buffer are reversed, which D21 leaves undefined, is the model's
choice (log entry 26). -/
def Obligations.RevBufReverses : Prop :=
  ∀ (dst src : Space) (dOff sOff n : Nat) (s : State),
    (dOff + n ≤ Config.maxLen → sOff + n ≤ Config.maxLen →
      (partialOverlap dst src dOff sOff n = true →
        revBuf dst src dOff sOff n s = .refused .partialOverlap) ∧
      (partialOverlap dst src dOff sOff n = false →
        ∃ t, revBuf dst src dOff sOff n s = .next t ∧
          (∀ k, k < n →
            (t.store dst).read (dOff + k) = some (rev8 (s.readByte src (sOff + k)))) ∧
          (∀ k, k < dOff ∨ dOff + n ≤ k → (t.store dst).read k = (s.store dst).read k) ∧
          (∀ sp, sp ≠ dst → BufferKept sp s t) ∧
          t = { s with ob := t.ob, ib := t.ib, tx := t.tx })) ∧
    (Config.maxLen < dOff + n ∨ Config.maxLen < sOff + n →
      revBuf dst src dOff sOff n s = .fault .bufferRange)

/-! ### The chip select (spec/41_chip_select.md) -/

/-- R78, R101: the polarity is inverted: `SETCS 1` issues `CTLCLR`, `SETCS 0` issues `CTLSET`. -/
def Obligations.PolarityInverted : Prop :=
  ∀ (en : Bool) (s : State), s.phase = .idle →
    ∃ t, exec (.setcs en) s = .next t ∧
      t.request = some (if en then .ctlclr else .ctlset) ∧
      t.requestWord = some (if en then 0x00000#18 else 0x10000#18)

/-- R100, acceptance: `SETCS en` clears the record of the last result, latches `en` and goes to phase
`CSONLY`; nothing else changes. -/
def Obligations.SetcsAccepted : Prop :=
  ∀ (en : Bool) (s : State), s.phase = .idle →
    ∃ t, exec (.setcs en) s = .next t ∧ t.csen = en ∧ t.phase = .csOnly ∧ Running t ∧
      t.ecode = .eNone ∧ t.fph = .idle ∧ BuffersKept s t ∧
      t = { s with
        csen := en, phase := t.phase, done := t.done, err := t.err, ecode := t.ecode,
        fph := t.fph, lerr := t.lerr, draws := t.draws }

/-- R100, R106, R176: a whole `SETCS en`, from the command word to its end: one request, its outcome in
`CSS`, and no second request. -/
def Obligations.SetcsOperation : Prop :=
  ∀ (cfg : Parameters) (s : State) (en : Bool) (rest : List HostAction), StartsSetcs s en rest →
    (∀ d lrest, nextAnswer s.link = some (.ok d, lrest) →
      ∃ t, runSteps cfg 2 s = .next t ∧ t.phase = .idle ∧ t.done = true ∧ t.err = false ∧
        t.ecode = .eNone ∧ t.fph = .idle ∧
        t.css = (if en then .asserted else .deasserted) ∧
        t.linkLog = s.linkLog ++ [if en then .ctlClear (.ok []) else .ctlSet (.ok [])] ∧
        t.len = s.len ∧ t.ilen = s.ilen ∧ t.ibvalid = s.ibvalid ∧ BuffersKept s t ∧
        t.host = rest ∧ t.link = lrest) ∧
    (∀ e lrest, nextAnswer s.link = some (.fail e, lrest) →
      ∃ t, runSteps cfg 2 s = .next t ∧ t.phase = .idle ∧ t.request = none ∧
        t.done = false ∧ t.err = true ∧ t.ecode = .eCtl ∧ t.fph = .csOnly ∧ t.lerr = e ∧
        t.css = .unknown ∧
        t.linkLog = s.linkLog ++ [if en then .ctlClear (.fail e) else .ctlSet (.fail e)] ∧
        t.len = s.len ∧ t.ilen = s.ilen ∧ t.ibvalid = s.ibvalid ∧ BuffersKept s t ∧
        t.host = rest ∧ t.link = lrest)

/-- R105: two successful `SETCS en` in a row leave the same `CSS` and the same `LINE` as one, and each
issues its own request: `LINKLOG` gains the same event twice. -/
def Obligations.SetcsIdempotent : Prop :=
  ∀ (cfg : Parameters) (s : State) (en : Bool) (rest : List HostAction)
    (d1 d2 : List Byte) (lrest : List LinkInput),
    StartsSetcs s en (.command (if en then 0x2001#16 else 0x2000#16) :: rest) →
    blocking rest = true → s.link = .answer (.ok d1) :: .answer (.ok d2) :: lrest →
    ∃ t u, runSteps cfg 2 s = .next t ∧ runSteps cfg 4 s = .next u ∧
      u.css = t.css ∧ u.line = t.line ∧
      u.css = (if en then .asserted else .deasserted) ∧
      u.linkLog = s.linkLog ++ (if en then [.ctlClear (.ok []), .ctlClear (.ok [])]
        else [.ctlSet (.ok []), .ctlSet (.ok [])]) ∧
      u.phase = .idle ∧ u.done = true

/-- R102: `CTLCLR`: its encoding, the phases that issue it, and what its answer does. That `exec` answers a
waiting state when no answer has come, with `LINE` as it was, is the model's choice (log entries 23 and 31):
R134 gives the core no step there. That `CSEN` keeps its value after phase `CSONLY` is the model's choice too
(log entry 35). -/
def Obligations.CtlclrAnswered : Prop :=
  encode .ctlclr = .l 0x00000#18 ∧
  (∀ s : State, s.request = some .ctlclr ↔
    s.phase = .assert ∨ (s.phase = .csOnly ∧ s.csen = true)) ∧
  ∀ (s : State) (rest : List LinkInput), s.request = some .ctlclr →
    (nextAnswer s.link = none → ∃ t, exec .ctlclr s = .next t ∧ t.waiting = true ∧
      t = { s with waiting := t.waiting, link := t.link }) ∧
    (∀ d, nextAnswer s.link = some (.ok d, rest) →
      ∃ t, exec .ctlclr s = .next t ∧ ControlSucceeded .clear rest s t) ∧
    (∀ e, nextAnswer s.link = some (.fail e, rest) →
      ∃ t, exec .ctlclr s = .next t ∧ ControlFailed .clear e rest s t ∧ t.request = none)

/-- R103: `CTLSET`: its encoding, the phases that issue it, and what its answer does. That `exec` answers a
waiting state when no answer has come, with `LINE` as it was, is the model's choice (log entries 23 and 31):
R134 gives the core no step there. That `CSEN` keeps its value after phase `CSONLY` is the model's choice too
(log entry 35). -/
def Obligations.CtlsetAnswered : Prop :=
  encode .ctlset = .l 0x10000#18 ∧
  (∀ s : State, s.request = some .ctlset ↔
    s.phase = .deassert ∨ (s.phase = .csOnly ∧ s.csen = false)) ∧
  ∀ (s : State) (rest : List LinkInput), s.request = some .ctlset →
    (nextAnswer s.link = none → ∃ t, exec .ctlset s = .next t ∧ t.waiting = true ∧
      t = { s with waiting := t.waiting, link := t.link }) ∧
    (∀ d, nextAnswer s.link = some (.ok d, rest) →
      ∃ t, exec .ctlset s = .next t ∧ ControlSucceeded .set rest s t) ∧
    (∀ e, nextAnswer s.link = some (.fail e, rest) →
      ∃ t, exec .ctlset s = .next t ∧ ControlFailed .set e rest s t ∧ t.request = none)

/-- R104: the transitions of `CSS`, complete: the four columns of the table, whatever `CSS` was, and
nothing but the answer to a control-line request and reset changes it, and reset sets it to `UNKNOWN`. -/
def Obligations.CssTransitions : Prop :=
  (∀ (s : State) (d : List Byte) (e : LinkError) (rest : List LinkInput),
    (s.request = some .ctlclr → nextAnswer s.link = some (.ok d, rest) →
      ∃ t, exec .ctlclr s = .next t ∧ t.css = .asserted) ∧
    (s.request = some .ctlclr → nextAnswer s.link = some (.fail e, rest) →
      ∃ t, exec .ctlclr s = .next t ∧ t.css = .unknown) ∧
    (s.request = some .ctlset → nextAnswer s.link = some (.ok d, rest) →
      ∃ t, exec .ctlset s = .next t ∧ t.css = .deasserted) ∧
    (s.request = some .ctlset → nextAnswer s.link = some (.fail e, rest) →
      ∃ t, exec .ctlset s = .next t ∧ t.css = .unknown)) ∧
  (∀ s t : State, step s = .next t → t.css ≠ s.css →
    ((s.request = some .ctlclr ∨ s.request = some .ctlset) ∧ ∃ a rest,
      nextAnswer s.link = some (a, rest)) ∨
    (t.css = .unknown ∧ ∃ rest, s.host = .reset :: rest)) ∧
  (∀ (s : State) (rest : List HostAction), s.host = .reset :: rest →
    ∃ t, step s = .next t ∧ t.css = .unknown)

/-! ### The framer (spec/42_transaction_framer.md) -/

/-- R14: `BITCNT` is the view `LEN` × 8, a multiple of 8 up to 65528. -/
def Obligations.BitCountIsEightTimesLength : Prop :=
  (∀ s : State, s.bitcnt = s.len ++ 0#3 ∧ s.bitcnt.toNat = s.len.toNat * 8 ∧
    s.bitcnt.toNat % 8 = 0 ∧ s.bitcnt.toNat ≤ 65528) ∧
  (∀ (m : Nat) (s : State), m ≤ 8191 →
    ({ s with len := BitVec.ofNat 13 m } : State).bitcnt.toNat = 8 * m)

/-- R115, R116, acceptance: `TRANSACT n` clears the record of the last result, invalidates `IB`, writes
`LEN` and goes to phase `ASSERT`; `OB`, `CSS`, the line and the history are unchanged. From there no byte of
`IB` and of `TX` holds a specified value (log entry 13). -/
def Obligations.TransactAccepted : Prop :=
  ∀ (n : Nat) (s : State), s.phase = .idle → n ≤ Config.maxLen →
    ∃ t, exec (.transact n) s = .next t ∧ t.len.toNat = n ∧ t.bitcnt.toNat = 8 * n ∧
      t.phase = .assert ∧ t.request = some .ctlclr ∧ Running t ∧ t.ecode = .eNone ∧
      t.fph = .idle ∧ t.ibvalid = false ∧ t.ilen = 0 ∧ BufferKept .ob s t ∧
      BufferUnspecified .ib t ∧ BufferUnspecified .tx t ∧
      t = { s with
        len := t.len, phase := t.phase, done := t.done, err := t.err, ecode := t.ecode,
        fph := t.fph, lerr := t.lerr, ibvalid := t.ibvalid, ilen := t.ilen, ib := t.ib,
        tx := t.tx, draws := t.draws }

/-- R172: `TRANSACT n` with `n` above `MAXLEN`. -/
def Obligations.TransactTooLong : Prop :=
  ∀ (n : Nat) (s : State), s.phase = .idle → Config.maxLen < n →
    ∃ t, exec (.transact n) s = .next t ∧ t.request = none ∧ t.linkLog = s.linkLog ∧
      t.css = s.css ∧ t.len = s.len ∧ BuffersKept s t ∧ t.ibvalid = false ∧ t.ilen = 0 ∧
      t.err = true ∧ t.ecode = .eLen ∧ t.fph = .idle ∧ t.phase = .idle ∧
      t = { s with
        done := false, err := t.err, ecode := t.ecode, fph := t.fph, lerr := t.lerr,
        ibvalid := t.ibvalid, ilen := t.ilen, draws := t.draws }

/-- R25, R55, R200: while `BUSY` = 1 no command is accepted: it has no meaning then, and neither it nor a
buffer access of the HOST happens; the HOST waits and the core goes on. That `exec` refuses such a command
by name is the model's form of a step that does not exist (log entry 20). That the last clause has a next
state also where the core waits for an answer that has not come is the model's choice (log entry 23): R134
gives the core no step there. -/
def Obligations.NoCommandWhileBusy : Prop :=
  ∀ s : State, s.busy = true →
    (∀ en, exec (.setcs en) s = .refused .commandWhileBusy) ∧
    (∀ n, exec (.transact n) s = .refused .commandWhileBusy) ∧
    s.cmdReady = false ∧
    (∀ a rest, s.host = a :: rest →
      (∃ w, a = .command w) ∨ (∃ addr data, a = .obWrite addr data) ∨ (∃ addr, a = .obRead addr) ∨
        (∃ addr, a = .ibRead addr) →
      ∃ t, step s = .next t ∧ t.host = s.host ∧ BufferKept .ob s t)

/-- R117: phase `ASSERT`, source step 1. -/
def Obligations.AssertPhase : Prop :=
  ∀ (s : State) (rest : List LinkInput), hostWaits s = true → s.phase = .assert →
    s.request = some .ctlclr ∧ s.requestWord = some 0x00000#18 ∧
    (∀ d, nextAnswer s.link = some (.ok d, rest) →
      ∃ t, step s = .next t ∧ t.css = .asserted ∧ t.phase = .revOut ∧
        t.linkLog = s.linkLog ++ [.ctlClear (.ok [])]) ∧
    (∀ e, nextAnswer s.link = some (.fail e, rest) →
      ∃ t, step s = .next t ∧ t.css = .unknown ∧ t.phase = .idle ∧ t.request = none ∧
        t.err = true ∧ t.ecode = .eCsAssert ∧ t.fph = .assert ∧ BufferKept .tx s t ∧
        t.linkLog = s.linkLog ++ [.ctlClear (.fail e)])

/-- R118: phase `REVOUT`, source step 2: `TX[k]` = `rev8(OB[k])` for `k < LEN`; no link request. A byte of
`OB` that nothing has written is a free value (log entry 3). -/
def Obligations.RevOutPhaseReversesOutbound : Prop :=
  ∀ s : State, hostWaits s = true → s.phase = .revOut →
    s.request = none ∧ ∃ t, step s = .next t ∧ t.phase = .exchange ∧
      (∀ k, k < s.len.toNat → t.tx.read k = some (rev8 (s.readByte .ob k))) ∧
      (∀ k, s.len.toNat ≤ k → t.tx.read k = s.tx.read k) ∧
      BufferKept .ob s t ∧ BufferKept .ib s t ∧
      t = { s with tx := t.tx, k := t.k, phase := t.phase }

/-- R119, R130: `XCHG` answered with an array of the right length: the request word is kind 2 with
8 × `LEN`, the array goes to `RX`, `CSS` is not changed. -/
def Obligations.ExchangeAnswered : Prop :=
  ∀ (s : State) (rx : List Byte) (rest : List LinkInput), s.phase = .exchange →
    nextAnswer s.link = some (.ok rx, rest) → rx.length = s.len.toNat →
    (∃ r, s.requestWord = some r ∧ r.toNat = 0x20000 + 8 * s.len.toNat) ∧
    s.txBytes.length = s.len.toNat ∧
    (∀ k, k < s.len.toNat → s.txBytes[k]? = some (s.readByte .tx k)) ∧
    ∃ t, exec (.xchg s.bitcnt) s = .next t ∧ t.phase = .deassert ∧ t.css = s.css ∧
      (∀ k, k < s.len.toNat → t.ib.read k = rx[k]?) ∧
      (∀ k, s.len.toNat ≤ k → t.ib.read k = s.ib.read k) ∧
      BufferKept .ob s t ∧ BufferKept .tx s t ∧
      t.linkLog = s.linkLog ++ [.xchg s.txBytes s.bitcnt (.ok rx)] ∧ t.link = rest ∧
      t.waiting = false ∧
      t = { s with
        ib := t.ib, t := t.t, phase := t.phase, linkLog := t.linkLog, link := t.link,
        waiting := t.waiting }

/-- R120: a failed exchange: `E_XCHG`, no further request, the chip select as it was. -/
def Obligations.ExchangeFailureLeavesChipSelect : Prop :=
  ∀ (s : State) (e : LinkError) (rest : List LinkInput), s.phase = .exchange →
    nextAnswer s.link = some (.fail e, rest) →
    ∃ t, exec (.xchg s.bitcnt) s = .next t ∧ ExchangeFailed e rest s t ∧
      (s.css = .asserted → t.css = .asserted)

/-- R133: an answer of any other length is treated as `fail` (`E_XCHG`); which error value it is
recorded with is open, and the statement says only that one is (log entry 7). -/
def Obligations.WrongLengthAnswerFails : Prop :=
  ∀ (s : State) (rx : List Byte) (rest : List LinkInput), s.phase = .exchange →
    nextAnswer s.link = some (.ok rx, rest) → rx.length ≠ s.len.toNat →
    ∃ t e, exec (.xchg s.bitcnt) s = .next t ∧ ExchangeFailed e rest s t

/-- R121: phase `DEASSERT`, source step 5. -/
def Obligations.DeassertPhase : Prop :=
  ∀ (s : State) (rest : List LinkInput), hostWaits s = true → s.phase = .deassert →
    s.request = some .ctlset ∧ s.requestWord = some 0x10000#18 ∧
    (∀ d, nextAnswer s.link = some (.ok d, rest) →
      ∃ t, step s = .next t ∧ t.css = .deasserted ∧ t.phase = .revIn ∧
        t.linkLog = s.linkLog ++ [.ctlSet (.ok [])]) ∧
    (∀ e, nextAnswer s.link = some (.fail e, rest) →
      ∃ t, step s = .next t ∧ t.css = .unknown ∧ t.phase = .idle ∧ t.err = true ∧
        t.ecode = .eCsDeassert ∧ t.fph = .deassert ∧ t.ibvalid = false ∧ t.ilen = 0 ∧
        BufferUnspecified .ib t ∧ t.linkLog = s.linkLog ++ [.ctlSet (.fail e)])

/-- R122: phase `REVIN`, source step 6: `IB[k]` = `rev8(RX[k])` in place, and the success. That `TX` keeps its
bytes when the transaction has ended is the model's choice (log entry 34): R20 calls them unspecified. -/
def Obligations.RevInPhaseReversesInbound : Prop :=
  ∀ s : State, hostWaits s = true → s.phase = .revIn →
    ∃ t, step s = .next t ∧
      (∀ k, k < s.len.toNat → t.ib.read k = some (rev8 (s.readByte .rx k))) ∧
      (∀ k, s.len.toNat ≤ k → t.ib.read k = s.ib.read k) ∧
      BufferKept .ob s t ∧ BufferKept .tx s t ∧
      t.ilen = s.len ∧ t.ibvalid = true ∧ t.done = true ∧ t.phase = .idle ∧
      t = { s with
        ib := t.ib, k := t.k, ilen := t.ilen, ibvalid := t.ibvalid, done := t.done,
        phase := t.phase }

/-- The model's choice (log entry 23): a request whose answer has not come has a next state in which the core
waits in its phase, and nothing else changes, neither `LINE` (log entry 31) nor `T` (log entry 36). R134 says
that the core has no step until the answer comes. -/
def Obligations.RequestWaits : Prop :=
  ∀ (s : State) (i : Instr), s.request = some i → nextAnswer s.link = none →
    ∃ t, exec i s = .next t ∧ t.waiting = true ∧ BuffersKept s t ∧
      t = { s with waiting := t.waiting, link := t.link }

/-- R134, R205, D19: if the LINK never answers, the core stays in that phase for ever with `BUSY` = 1; where
`LINK_ANSWERS` is assumed, every operation ends, in success or in failure. That a hung core is a run of waiting
steps is the model's choice (log entry 23), and so is the form of the assumption (log entry 38). -/
def Obligations.EndsIfAnsweredElseHangs : Prop :=
  (∀ (cfg : Parameters) (n : Nat) (s : State), s.request ≠ none →
    (∀ a, LinkInput.answer a ∉ s.link) → hostWaits s = true →
    ∃ t, runSteps cfg n s = .next t ∧ t.phase = s.phase ∧ t.busy = true ∧ t.linkLog = s.linkLog ∧
      t.css = s.css) ∧
  (∀ (cfg : Parameters) (s : State), cfg.linkAnswers = true → LinkAdmitted cfg s →
    s.busy = true → blocking s.host = true →
    ∃ n t, runSteps cfg n s = .next t ∧ t.busy = false ∧ (t.done = true ∨ t.err = true) ∧
      t.host = s.host)

/-- R125: a link request that the phase does not issue has no step: `exec` refuses it by name (the model's
form, log entry 20). -/
def Obligations.RequestOutOfPhaseRefused : Prop :=
  ∀ (s : State) (i : Instr), (i = .ctlclr ∨ i = .ctlset ∨ ∃ bc, i = .xchg bc) →
    s.request ≠ some i → exec i s = .refused .requestNotIssued

/-- R125: a phase changes by a row of the phase table and by nothing else, the reset input apart: from, event,
to, and how the operation ends; and it stays only where no event of such a row stands. R16: `IDLE` waits for a
command: a HOST with nothing to do, or that leaves the step to the others, starts nothing. That the idle core
and the core that waits for an answer have a step at all is the model's choice (log entry 23). The rows from
`IDLE` to `IDLE` are in IllegalCommandsRejected (`E_CMD`) and TransactTooLong (`E_LEN`). -/
def Obligations.PhaseTransitions : Prop :=
  (∀ s t : State, FlagsExclusive s → step s = .next t →
    (t.phase = s.phase ∧ NoPhaseEvent s) ∨ (∃ rest, s.host = .reset :: rest) ∨ PhaseRow s t) ∧
  (∀ s : State, s.phase = .idle →
    (s.host = [] → step s = .next s) ∧
    (∀ rest, s.host = .yield :: rest → step s = .next { s with host := rest }))

/-- R23, R53: the link history only grows, by at most one event a step. -/
def Obligations.LinkLogGrows : Prop :=
  ∀ s t : State, step s = .next t → ∃ evs, t.linkLog = s.linkLog ++ evs ∧ evs.length ≤ 1

/-- R128: no phase writes `OB`: only the HOST's write port does, while the core is idle, and reset. -/
def Obligations.OutboundPreserved : Prop :=
  ∀ s t : State, step s = .next t →
    BufferKept .ob s t ∨ (∃ rest, s.host = .reset :: rest) ∨
    (s.phase = .idle ∧ ∃ addr data rest, s.host = .obWrite addr data :: rest)

/-- R115, R123, R126: a whole `TRANSACT n` that succeeds, with a LINK that answers each request at once: the
six phases, three events, the reversed response, `OB` unchanged. A byte of `OB` that nothing has written is
a free value (log entry 3). -/
def Obligations.TransactSucceeds : Prop :=
  ∀ (cfg : Parameters) (s : State) (n : Nat) (rest : List HostAction) (d1 rx d2 : List Byte)
    (lrest : List LinkInput), StartsTransact s n rest →
    s.link = .answer (.ok d1) :: .answer (.ok rx) :: .answer (.ok d2) :: lrest → rx.length = n →
    ∃ t, runSteps cfg 6 s = .next t ∧ Responded n rx t ∧ BufferKept .ob s t ∧
      phaseTrace cfg 6 s = [.idle, .assert, .revOut, .exchange, .deassert, .revIn, .idle] ∧
      t.linkLog = s.linkLog ++ [.ctlClear (.ok []),
        .xchg (outArray s n) (BitVec.ofNat 16 (8 * n)) (.ok rx), .ctlSet (.ok [])] ∧
      t.host = rest ∧ t.link = lrest

/-- R127: the round trip: against a LINK that echoes the array it is given, `IB[k]` = `OB[k]` for every
`k < n`, for every `n` up to `MAXLEN`. A byte of `OB` that nothing has written is a free value, which comes
back like any other (log entry 3). -/
def Obligations.TransactRoundTrip : Prop :=
  ∀ (cfg : Parameters) (s : State) (n : Nat) (rest : List HostAction)
    (d1 d2 : List Byte) (lrest : List LinkInput),
    StartsTransact s n rest →
    (s.link = .answer (.ok d1) :: .answer (.ok (outArray s n)) :: .answer (.ok d2) :: lrest →
      ∃ t, runSteps cfg 6 s = .next t ∧ t.done = true ∧
        ∀ k, k < n → t.ib.read k = some (s.readByte .ob k)) ∧
    (∀ rx, s.link = .answer (.ok d1) :: .answer (.ok rx) :: .answer (.ok d2) :: lrest →
      rx.length = n → ∃ t, runSteps cfg 6 s = .next t ∧ t.done = true ∧
        ∀ k, k < n → t.ib.read k = (rx[k]?).map rev8)

/-- R124: length zero: both control-line requests and the exchange with bit count 0 are issued; the LINK
may also fail the exchange. -/
def Obligations.ZeroLengthTransact : Prop :=
  ∀ (cfg : Parameters) (s : State) (rest : List HostAction) (d1 d2 : List Byte) (e : LinkError)
    (lrest : List LinkInput), StartsTransact s 0 rest →
    (s.link = .answer (.ok d1) :: .answer (.ok []) :: .answer (.ok d2) :: lrest →
      ∃ t, runSteps cfg 6 s = .next t ∧ t.done = true ∧ t.err = false ∧ t.ibvalid = true ∧
        t.ilen = 0 ∧ t.css = .deasserted ∧
        phaseTrace cfg 6 s = [.idle, .assert, .revOut, .exchange, .deassert, .revIn, .idle] ∧
        t.linkLog = s.linkLog ++ [.ctlClear (.ok []), .xchg [] 0 (.ok []), .ctlSet (.ok [])] ∧
        BufferKept .ob s t ∧ BufferUnspecified .tx t ∧ BufferUnspecified .ib t) ∧
    (s.link = .answer (.ok d1) :: .answer (.fail e) :: lrest →
      ∃ t, runSteps cfg 4 s = .next t ∧ NoResponse 0 t ∧ t.ecode = .eXchg ∧
        t.linkLog = s.linkLog ++ [.ctlClear (.ok []), .xchg [] 0 (.fail e)])

/-- R173: a `TRANSACT n` whose assert fails. -/
def Obligations.TransactFailsAtAssert : Prop :=
  ∀ (cfg : Parameters) (s : State) (n : Nat) (rest : List HostAction)
    (e : LinkError) (lrest : List LinkInput),
    StartsTransact s n rest → s.link = .answer (.fail e) :: lrest →
    ∃ t, runSteps cfg 2 s = .next t ∧ NoResponse n t ∧ t.ecode = .eCsAssert ∧ t.fph = .assert ∧
      t.lerr = e ∧ t.css = .unknown ∧ BufferKept .ob s t ∧ BufferUnspecified .tx t ∧
      t.linkLog = s.linkLog ++ [.ctlClear (.fail e)] ∧ t.host = rest ∧ t.link = lrest

/-- R174: a `TRANSACT n` whose exchange fails: the chip select is left asserted. A byte of `OB` that nothing
has written is a free value (log entry 3). -/
def Obligations.TransactFailsAtExchange : Prop :=
  ∀ (cfg : Parameters) (s : State) (n : Nat) (rest : List HostAction) (d : List Byte) (e : LinkError)
    (lrest : List LinkInput), StartsTransact s n rest →
    s.link = .answer (.ok d) :: .answer (.fail e) :: lrest →
    ∃ t, runSteps cfg 4 s = .next t ∧ NoResponse n t ∧ t.ecode = .eXchg ∧ t.fph = .exchange ∧
      t.lerr = e ∧ t.css = .asserted ∧ BufferKept .ob s t ∧
      (∀ k, k < n → t.tx.read k = some (rev8 (s.readByte .ob k))) ∧
      t.linkLog = s.linkLog ++ [.ctlClear (.ok []),
        .xchg (outArray s n) (BitVec.ofNat 16 (8 * n)) (.fail e)] ∧
      t.host = rest ∧ t.link = lrest

/-- R175: a `TRANSACT n` whose de-assert fails: the returned bytes are discarded. A byte of `OB` that nothing
has written is a free value (log entry 3). -/
def Obligations.TransactFailsAtDeassert : Prop :=
  ∀ (cfg : Parameters) (s : State) (n : Nat) (rest : List HostAction) (d rx : List Byte) (e : LinkError)
    (lrest : List LinkInput), StartsTransact s n rest →
    s.link = .answer (.ok d) :: .answer (.ok rx) :: .answer (.fail e) :: lrest → rx.length = n →
    ∃ t, runSteps cfg 5 s = .next t ∧ NoResponse n t ∧ t.ecode = .eCsDeassert ∧
      t.fph = .deassert ∧ t.lerr = e ∧ t.css = .unknown ∧ BufferKept .ob s t ∧
      t.linkLog = s.linkLog ++ [.ctlClear (.ok []),
        .xchg (outArray s n) (BitVec.ofNat 16 (8 * n)) (.ok rx), .ctlSet (.fail e)] ∧
      t.host = rest ∧ t.link = lrest

/-! ### Buffers and streams (spec/20_memory.md, spec/10_state.md) -/

/-- R41: the write port of `OB`: one byte is written; index 8191 selects no byte and the write is
dropped. -/
def Obligations.OutboundWritePort : Prop :=
  ∀ (s : State) (addr : Length) (data : Byte) (rest : List HostAction), s.phase = .idle →
    s.host = .obWrite addr data :: rest →
    ∃ t, step s = .next t ∧
      (addr.toNat ≤ 8190 → t.ob.read addr.toNat = some data ∧
        ∀ k, k ≠ addr.toNat → t.ob.read k = s.ob.read k) ∧
      (addr.toNat = 8191 → BufferKept .ob s t) ∧
      BufferKept .ib s t ∧ BufferKept .tx s t ∧ t = { s with ob := t.ob, host := rest }

/-- R26, R41: the read-back of `OB` that a binding may offer (log entry 25): the byte that was written is
returned, a read of index 8191 returns some value (log entry 11), and no buffer changes. -/
def Obligations.OutboundReadPort : Prop :=
  ∀ (s : State) (addr : Length) (rest : List HostAction), s.phase = .idle →
    s.host = .obRead addr :: rest →
    (addr.toNat ≤ 8190 → ∃ t, step s = .next t ∧
      (∀ b, s.ob.read addr.toNat = some b → t.rdata = b) ∧ BuffersKept s t ∧
      t = { s with rdata := t.rdata, host := rest }) ∧
    (addr.toNat = 8191 → ∃ t, step s = .next t ∧ BuffersKept s t ∧
      t = { s with rdata := t.rdata, host := rest, draws := t.draws })

/-- R12, R41: the read port of `IB`: a byte of a valid response is returned, a byte with no specified
value is not read (the refusal is log entry 4), and a read of index 8191 returns some value. -/
def Obligations.InboundReadPort : Prop :=
  ∀ (s : State) (addr : Length) (rest : List HostAction), s.phase = .idle →
    s.host = .ibRead addr :: rest →
    (∀ b, addr.toNat ≤ 8190 → s.ibvalid = true → addr.toNat < s.ilen.toNat →
      s.ib.read addr.toNat = some b →
      ∃ t, step s = .next t ∧ t.rdata = b ∧ BuffersKept s t ∧
        t = { s with rdata := t.rdata, host := rest }) ∧
    (addr.toNat ≤ 8190 → s.ibvalid = false ∨ s.ilen.toNat ≤ addr.toNat →
      step s = .refused .unspecifiedRead) ∧
    (addr.toNat = 8191 → ∃ t, step s = .next t ∧ BuffersKept s t ∧
      t = { s with rdata := t.rdata, host := rest, draws := t.draws })

/-- R44: `SO[t]` = `TX[t div 8][t mod 8]` for every `t` below the bit count, and no bit more. It rests on
`LINK_BIT_ORDER` = `lsb_first` (log entry 17, PRESUMED). -/
def Obligations.SerialiserBits : Prop :=
  ∀ s : State, s.so.length = s.bitcnt.toNat ∧
    ∀ t, t < s.bitcnt.toNat →
      s.so[t]? = some ((s.readByte .tx (t / 8)).getLsbD (t % 8))

/-- R45: `RX[k][j]` = `SI[8*k + j]`: `DES` builds the bytes of a stream, in either order of the link's
bits it undoes `SER`, and it builds no partial byte: there are as many bytes as whole groups of 8 bits. The
first clause takes the order `lsb_first` (log entry 17, PRESUMED). -/
def Obligations.DeserialiserBytes : Prop :=
  (∀ (si : List Bool) (k j : Nat), 8 * k + 8 ≤ si.length → j ≤ 7 →
    ((des .lsbFirst si)[k]?).map (fun b => b.getLsbD j) = si[8 * k + j]?) ∧
  (∀ (o : BitOrder) (bytes : List Byte), des o (ser o bytes) = bytes) ∧
  (∀ (o : BitOrder) (si : List Bool), (des o si).length = si.length / 8)

/-- R46: end to end, each outbound byte leaves most significant bit first and the first bit received
becomes the most significant. It rests on `LINK_BIT_ORDER` = `lsb_first` (log entry 17, PRESUMED). -/
def Obligations.SpiBitOrder : Prop :=
  (∀ (s : State) (k j : Nat), s.phase = .exchange → OutboundReversed s → k < s.len.toNat → j ≤ 7 →
    s.so[8 * k + j]? = some ((s.readByte .ob k).getLsbD (7 - j))) ∧
  (∀ (rx : List Byte) (k j : Nat) (b : Byte), rx[k]? = some b → j ≤ 7 →
    (siOf rx)[8 * k + j]? = some ((rev8 b).getLsbD (7 - j)))

/-! ### Failures, reset, the host's sequences, the invariant -/

/-- R180: `raise Err(code, e)`, exactly. -/
def Obligations.RaiseExactly : Prop :=
  ∀ (transact : Bool) (code : ECode) (e : LinkError) (s : State),
    (raiseErr transact code e s).ecode = code ∧ (raiseErr transact code e s).fph = s.phase ∧
    (raiseErr transact code e s).lerr = e ∧ (raiseErr transact code e s).err = true ∧
    (raiseErr transact code e s).done = false ∧ (raiseErr transact code e s).phase = .idle ∧
    (transact = true → (raiseErr transact code e s).ibvalid = false ∧
      (raiseErr transact code e s).ilen = 0) ∧
    (transact = false → (raiseErr transact code e s).ibvalid = s.ibvalid ∧
      (raiseErr transact code e s).ilen = s.ilen) ∧
    BuffersKept s (raiseErr transact code e s) ∧
    raiseErr transact code e s = { s with
      ecode := (raiseErr transact code e s).ecode, fph := (raiseErr transact code e s).fph,
      lerr := (raiseErr transact code e s).lerr, err := (raiseErr transact code e s).err,
      done := (raiseErr transact code e s).done, phase := (raiseErr transact code e s).phase,
      ibvalid := (raiseErr transact code e s).ibvalid, ilen := (raiseErr transact code e s).ilen }

/-- R32: the reset values that the spec gives; where it gives none, nothing is said. -/
def Obligations.ResetValues : Prop :=
  State.reset.phase = .idle ∧ State.reset.busy = false ∧ State.reset.done = false ∧
  State.reset.err = false ∧ State.reset.ibvalid = false ∧ State.reset.ecode = .eNone ∧
  State.reset.fph = .idle ∧ State.reset.css = .unknown ∧ State.reset.len = 0 ∧
  State.reset.bitcnt = 0 ∧ State.reset.ilen = 0 ∧ State.reset.linkLog = [] ∧
  State.reset.status = 0#4 ∧ ∀ sp, BufferUnspecified sp State.reset

/-- R195, R196, R197: the reset input, in any phase: the core's registers at their reset values, no link
request issued, `LINE` not touched unless the core was busy, an abandoned request kept in the history
without an answer, and its late answer ignored. Which request counts as issued, its event `unanswered` and
the late input are the model's reading of R197 (log entry 15, DEDUCED). -/
def Obligations.ResetInput : Prop :=
  (∀ (s : State) (rest : List HostAction), s.host = .reset :: rest →
    ∃ t, step s = .next t ∧ t.phase = .idle ∧ t.done = false ∧ t.err = false ∧
      t.ibvalid = false ∧ t.ecode = .eNone ∧ t.fph = .idle ∧ t.css = .unknown ∧ t.len = 0 ∧
      t.ilen = 0 ∧ (∀ sp, BufferUnspecified sp t) ∧ t.request = none ∧ t.waiting = false ∧
      (s.busy = false → t.line = s.line) ∧
      (s.waiting = false → t.linkLog = s.linkLog) ∧
      (s.waiting = true → s.request = some .ctlclr →
        t.linkLog = s.linkLog ++ [.ctlClear .unanswered]) ∧
      (s.waiting = true → s.request = some .ctlset →
        t.linkLog = s.linkLog ++ [.ctlSet .unanswered]) ∧
      (s.waiting = true → s.phase = .exchange →
        t.linkLog = s.linkLog ++ [.xchg s.txBytes s.bitcnt .unanswered]) ∧
      t.host = rest ∧ t.link = s.link) ∧
  (∀ (a : LinkAnswer) (link : List LinkInput), nextAnswer (.late a :: link) = nextAnswer link)

/-- The invariant of the machine holds at reset, under every configuration. -/
def Obligations.InvariantAtReset : Prop := ∀ cfg : Parameters, Inv cfg State.reset

/-- The invariant of the machine is kept by every step: the buffers' canonical form, the flags of R17,
the failure record of R170, the response of R12, the outbound array of R20, `CSS` as R15 says, and the device
that the HOST holds in each state of its session (R146, R147, R199; the stages are log entry 22), with no
recovery due in `Closed` (R182, log entry 33), each state of a sequence one of the configured mode (R5, R156),
and no device open under a configuration error (R154). That `LINE` agrees with `CSS` also while a
control-line request is outstanding is the model's choice (log entry 31): there R108 is silent on the level.
The configuration is a parameter that nothing constrains (log entry 37): the first clause is of `step`, which runs under the machine's own, the second of every
configuration. -/
def Obligations.InvariantKept : Prop :=
  (∀ s t : State, Inv Config.parameters s → step s = .next t → Inv Config.parameters t) ∧
  (∀ (cfg : Parameters) (s t : State), Inv cfg s → stepWith cfg s = .next t → Inv cfg t)

/-- R17: at every moment of every run at most one of `DONE`, `ERR` is 1, and both are 0 while
`BUSY` = 1. -/
def Obligations.FlagsExclusiveAlways : Prop :=
  FlagsExclusive State.reset ∧
  ∀ (cfg : Parameters) (n : Nat) (s t : State), FlagsExclusive s →
    runSteps cfg n s = .next t → FlagsExclusive t

/-- R182, R183, R154: after the failure of a link request the HOST issues `setcs 0` unless the chip select is
known to be de-asserted, also where another command acknowledged the failure; after `E_CMD` or `E_LEN` no
recovery is owed; then it closes the session, and nothing is retried, the recovery neither. No `CLOSE` comes
before a recovery that is due. The mark `failed` and what the HOST remembers are the model's own (log entries 22
and 33). -/
def Obligations.HostRecovery : Prop :=
  (∀ (cfg : Parameters) (s : State) (rest : List HostAction), s.phase = .idle → s.err = true →
    s.host = .check :: rest ∨ s.host = .emit :: rest ∨
      (s.hostState = .deviceReady ∧ s.stage = .fresh ∧ ∃ input, s.host = .start input :: rest) →
    ∃ t, stepWith cfg s = .next t ∧
      (s.recovery = .clear →
        s.ecode = .eCsAssert ∨ s.ecode = .eXchg ∨ s.ecode = .eCsDeassert ∨ s.ecode = .eCtl →
        s.css ≠ .deasserted → t.host = [.command 0x2000#16, .close false]) ∧
      (s.recovery = .clear → s.css = .deasserted → t.host = [.close false]) ∧
      (s.recovery = .clear → s.ecode = .eCmd ∨ s.ecode = .eLen → t.host = [.close false]) ∧
      (s.recovery = .owed → t.host = [.command 0x2000#16, .close false]) ∧
      (s.recovery = .issued → t.host = [.close false]) ∧
      t.stage = .failed ∧ BuffersKept s t ∧ t = { s with host := t.host, stage := t.stage }) ∧
  (∀ (cfg : Parameters) (s : State) (b : Bool) (rest : List HostAction), s.phase = .idle →
    (∀ c, s.hostState ≠ .closed c) → s.host = .close b :: rest →
    (recoveryDue s = true → b = false ∨ (s.hostState ≠ .idle ∧ s.stage = .finished) →
      stepWith cfg s = .next { s with host := [.command 0x2000#16, .close false], stage := .failed }) ∧
    (recoveryDue s = false → b = false → ∃ t, stepWith cfg s = .next t ∧ t.hostState = .closed false ∧
      t.host = [] ∧ t.linkLog = s.linkLog ∧ BuffersKept s t)) ∧
  (∀ (cfg : Parameters) (s : State) (w : CommandWord) (rest : List HostAction), s.phase = .idle →
    s.host = .command w :: rest → ∃ t, stepWith cfg s = .next t ∧
      (recoveryDue s = true → w ≠ 0x2000#16 → t.recovery = .owed) ∧
      (recoveryDue s = true → w = 0x2000#16 → s.stage ≠ .booting → t.recovery = .issued) ∧
      (recoveryDue s = false ∨ (w = 0x2000#16 ∧ s.stage = .booting) → t.recovery = .clear))

/-- R151: end-of-input inside a block, the first of the session or a later one: no `TRANSACT` for the partial
block, nothing is emitted for it, and the session is closed as failed. -/
def Obligations.PartialBlockIsFatal : Prop :=
  ∀ (cfg : Parameters) (s : State) (l : Nat) (input : List Byte) (rest : List HostAction),
    s.phase = .idle → Interactive cfg l → AwaitsBlock s → 0 < input.length → input.length < l →
    s.host = .start input :: rest →
    ∃ t, runSteps cfg 2 s = .next t ∧ t.hostState = .closed false ∧ t.host = [] ∧
      t.linkLog = s.linkLog ∧ t.emitted = s.emitted ∧ t.phase = .idle ∧ BuffersKept s t

/-- R150: `INTERACTIVE L`, with a LINK that answers at once. One round: the block is written to `OB`, one
`TRANSACT L` runs, the response is emitted, and only then the next read begins. A whole session of any
number of rounds: each block's response in order, the same three events for each, and the clean end where
the input ends between two blocks (spec/95_test_vectors.md section 1, S5 and S6). -/
def Obligations.InteractiveSession : Prop :=
  (∀ (cfg : Parameters) (s : State) (l : Nat) (input rx : List Byte) (rest : List HostAction)
      (lrest : List LinkInput),
    s.phase = .idle → Interactive cfg l → AwaitsBlock s → l ≤ input.length →
    rx.length = l → s.host = .start input :: rest →
    s.link = transferAnswers rx ++ lrest →
    ∃ t, runSteps cfg (l + 8) s = .next t ∧ t.phase = .idle ∧ AwaitsBlock t ∧
      t.hostState = .interactiveLoop ∧ t.css = .deasserted ∧
      t.host = .start (input.drop l) :: rest ∧ t.link = lrest ∧
      t.emitted = s.emitted ++ [rx.map rev8] ∧
      t.linkLog = s.linkLog ++ transferEvents (input.take l) rx ∧
      (∀ k, k < l → t.ob.read k = input[k]?)) ∧
  (∀ (cfg : Parameters) (s : State) (l : Nat) (rounds : List (List Byte × List Byte))
      (rest : List HostAction) (lrest : List LinkInput),
    s.phase = .idle → Interactive cfg l → AwaitsBlock s →
    (∀ r ∈ rounds, r.1.length = l ∧ r.2.length = l) →
    s.host = .start (rounds.flatMap fun r => r.1) :: rest →
    s.link = (rounds.flatMap fun r => transferAnswers r.2) ++ lrest →
    ∃ t, runSteps cfg (rounds.length * (l + 8) + 2) s = .next t ∧ t.hostState = .closed true ∧
      t.host = [] ∧ t.device = .notOpen ∧ t.phase = .idle ∧ t.link = lrest ∧
      t.emitted = s.emitted ++ rounds.map (fun r => r.2.map rev8) ∧
      t.linkLog = s.linkLog ++ rounds.flatMap (fun r => transferEvents r.1 r.2))

/-- R149: an oversized one-shot input: no command is issued and the session is closed as failed. -/
def Obligations.OversizedInputIsFatal : Prop :=
  ∀ (cfg : Parameters) (s : State) (input : List Byte) (rest : List HostAction),
    cfg.mode = .oneShot → s.phase = .idle → s.hostState = .deviceReady → s.stage = .fresh →
    NoFailure s → Config.maxLen < input.length → s.host = .start input :: rest →
    ∃ t, runSteps cfg 2 s = .next t ∧ t.hostState = .closed false ∧ t.host = [] ∧
      t.linkLog = s.linkLog ∧ t.emitted = s.emitted ∧ t.phase = .idle ∧ BuffersKept s t

/-- R149: a whole one-shot session from `DeviceReady`, with a LINK that answers at once: the input is written
to `OB`, one `TRANSACT` runs, the reversed bytes the LINK returned are emitted, and the session is closed in
success. -/
def Obligations.OneShotEmitsResponse : Prop :=
  ∀ (cfg : Parameters) (s : State) (input : List Byte) (rest : List HostAction) (d1 rx d2 : List Byte)
    (lrest : List LinkInput), cfg.mode = .oneShot → s.phase = .idle → s.hostState = .deviceReady →
    s.stage = .fresh → NoFailure s → input.length ≤ Config.maxLen → rx.length = input.length →
    s.host = .start input :: rest →
    s.link = .answer (.ok d1) :: .answer (.ok rx) :: .answer (.ok d2) :: lrest →
    ∃ t, runSteps cfg (input.length + 9) s = .next t ∧ t.hostState = .closed true ∧ t.host = [] ∧
      t.emitted = s.emitted ++ [rx.map rev8] ∧ t.linkLog = s.linkLog ++ transferEvents input rx ∧
      (∀ k, k < input.length → t.ob.read k = input[k]?) ∧
      t.css = .deasserted ∧ t.link = lrest

/-- R147, R198, R199: `BOOT` from `Idle`, the control line's request answered `ok`: the control line's
LINK_READY holds before its own `setcs 0`, the exchange's does not; then one `CTLSET`, the de-asserted
baseline, `DeviceReady`, and LINK_READY of both ports. That the collaborator's own steps of R147 succeed is
the model's choice (log entry 22, DESIGN CHOICE). R145: a session begins with `BOOT` and goes on with the
sequence of its mode. R154 (a): a configuration error is fatal at start-up, with no device opened and no request
to the LINK; where a recovery of an earlier failure is due, that comes first (log entry 33). -/
def Obligations.BootForcesBaseline : Prop :=
  (∀ (cfg : Parameters) (s : State) (rest : List HostAction) (d : List Byte)
      (lrest : List LinkInput), ¬BadConfig cfg →
    s.phase = .idle → s.hostState = .idle → s.device = .notOpen → s.stage = .fresh →
    s.host = .boot :: rest → s.link = .answer (.ok d) :: lrest →
    (∃ u, stepWith cfg s = .next u ∧ u.hostState = .idle ∧
      u.host.head? = some (.command 0x2000#16) ∧
      LinkReady .controlLine u ∧ ¬LinkReady .exchange u) ∧
    ∃ t, runSteps cfg 5 s = .next t ∧ t.hostState = .deviceReady ∧ Baseline t ∧
      LinkReady .controlLine t ∧ LinkReady .exchange t ∧ NoFailure t ∧ t.stage = .fresh ∧
      t.linkLog = s.linkLog ++ [.ctlSet (.ok [])] ∧ t.host = rest ∧ t.link = lrest ∧
      BuffersKept s t ∧ t.len = s.len) ∧
  (∀ (cfg : Parameters) (s : State) (input : List Byte) (rest : List HostAction),
    s.phase = .idle → s.hostState = .idle → s.device = .notOpen → s.stage = .fresh →
    (¬BadConfig cfg → s.host = .session input :: rest →
      stepWith cfg s = .next { s with host := .boot :: .start input :: rest }) ∧
    (BadConfig cfg → s.host = .session input :: rest ∨ s.host = .boot :: rest →
      (recoveryDue s = false → ∃ t, stepWith cfg s = .next t ∧ t.hostState = .closed false ∧
        t.host = [] ∧ BuffersKept s t ∧ t = { s with hostState := t.hostState, host := t.host }) ∧
      (recoveryDue s = true → ∃ t, stepWith cfg s = .next t ∧
        t = { s with host := [.command 0x2000#16, .close false], stage := .failed })))

/-- R146, R147, R153: the HOST's state changes only along the edges of R146: `DeviceReady` is reached only
from a `BOOT` whose `setcs 0` succeeded, `OneShotTransfer` and `InteractiveLoop` only when that is the
configured mode (R5, R156), `Closed` in success only from a finished sequence, and nothing leads out of
`Closed`; R182: nothing leads there while a recovery is due. The stages that tell these moments
apart and what the HOST remembers are the model's own (log entries 22 and 33). -/
def Obligations.HostStateTransitions : Prop :=
  ∀ (cfg : Parameters) (s t : State), stepWith cfg s = .next t →
    t.hostState = s.hostState ∨ HostEdge cfg s t

/-- R148: a whole direct chip-select session from `DeviceReady`: one control-line request, no exchange,
and the chip select left as asked; no input is read. -/
def Obligations.CsActionSession : Prop :=
  ∀ (cfg : Parameters) (s : State) (b : Bool) (input : List Byte) (rest : List HostAction)
    (d : List Byte) (lrest : List LinkInput), cfg.mode = .csAction b →
    s.phase = .idle → s.hostState = .deviceReady → s.stage = .fresh → NoFailure s →
    s.host = .start input :: rest →
    s.link = .answer (.ok d) :: lrest →
    ∃ t, runSteps cfg 5 s = .next t ∧ t.hostState = .closed true ∧ t.host = [] ∧
      t.css = (if b then .asserted else .deasserted) ∧ lineOf t.css t.line ∧
      t.linkLog = s.linkLog ++ [if b then .ctlClear (.ok []) else .ctlSet (.ok [])] ∧
      t.emitted = s.emitted ∧ BuffersKept s t ∧ t.link = lrest

/-- R17, R27, R79: what the status port shows, in every phase, and that reading it changes nothing. -/
def Obligations.StatusPortShowsRegisters : Prop :=
  ∀ s : State,
    (s.status.getLsbD 0 = true ↔ s.phase ≠ .idle) ∧ s.status.getLsbD 1 = s.done ∧
    s.status.getLsbD 2 = s.err ∧ s.status.getLsbD 3 = s.ibvalid ∧
    s.statusPort.status = s.status ∧
    s.statusPort.ecode = (match s.ecode with
      | .eNone => 0#3 | .eCmd => 1#3 | .eLen => 2#3 | .eCsAssert => 3#3 | .eXchg => 4#3
      | .eCsDeassert => 5#3 | .eCtl => 6#3) ∧
    s.statusPort.fph = (match s.fph with
      | .idle => 0#3 | .assert => 1#3 | .revOut => 2#3 | .exchange => 3#3 | .deassert => 4#3
      | .revIn => 5#3 | .csOnly => 6#3) ∧
    s.statusPort.css = (match s.css with
      | .unknown => 0#2 | .deasserted => 1#2 | .asserted => 2#2) ∧
    s.statusPort.lerr = s.lerr ∧ s.statusPort.len = s.len ∧ s.statusPort.ilen = s.ilen ∧
    (∀ rest, s.host = .readStatus :: rest → step s = .next { s with host := rest })
end

