-- ==== Sys2Proof/Laws/Memory.lean ====
section
/-! SUPPORT. The laws of a byte space: what a read after a write gives, and that every operation keeps the
canonical form. -/

namespace Sys2Proof.Machine

@[simp] theorem Memory.read_nil (k : Nat) : Memory.read [] k = none := rfl

@[simp] theorem Memory.read_cons (a : Nat) (b : Byte) (m : Memory) (k : Nat) :
    Memory.read ((a, b) :: m) k = if a = k then some b else Memory.read m k := rfl

@[simp] theorem Memory.wf_nil : Memory.wf [] = true := rfl

theorem Memory.wfFrom_cons (a : Nat) (b : Byte) (m : Memory) (lo : Nat) :
    Memory.wfFrom ((a, b) :: m) lo = true ↔
      lo ≤ a ∧ a < Config.maxLen ∧ Memory.wfFrom m (a + 1) = true := by
  simp [Memory.wfFrom, and_assoc]

/-- A read after an insertion. -/
theorem Memory.read_insert (m : Memory) (k : Nat) (v : Byte) (j : Nat) :
    (m.insert k v).read j = if k = j then some v else m.read j := by
  induction m with
  | nil => simp [Memory.insert]
  | cons c m ih =>
    obtain ⟨a, b⟩ := c
    unfold Memory.insert
    split
    · simp
    · split
      · next h => subst h; simp only [Memory.read_cons]; split <;> simp_all
      · next h =>
        simp only [Memory.read_cons, ih]
        split <;> split <;> simp_all

theorem Memory.wfFrom_insert (m : Memory) (k : Nat) (v : Byte) (lo : Nat)
    (hm : m.wfFrom lo = true) (hlo : lo ≤ k) (hk : k < Config.maxLen) :
    (m.insert k v).wfFrom lo = true := by
  induction m generalizing lo with
  | nil => simp [Memory.insert, Memory.wfFrom, hlo, hk]
  | cons c m ih =>
    obtain ⟨a, b⟩ := c
    obtain ⟨h1, h2, h3⟩ := (Memory.wfFrom_cons a b m lo).mp hm
    unfold Memory.insert
    split
    · next h => simp [Memory.wfFrom_cons, hlo, hk, h2, h3, Nat.succ_le_of_lt h]
    · split
      · next h => subst h; simp [Memory.wfFrom_cons, h1, h2, h3]
      · next h h' =>
        have : a + 1 ≤ k := by omega
        simp [Memory.wfFrom_cons, h1, h2, ih (a + 1) h3 this]

/-- A read after a write (R41: a write outside the buffer is dropped). -/
theorem Memory.read_write (m : Memory) (k : Nat) (v : Byte) (j : Nat) :
    (m.write k v).read j = if k = j ∧ k < Config.maxLen then some v else m.read j := by
  unfold Memory.write
  split
  · next h => simp [Memory.read_insert, h]
  · next h => simp [h]

/-- A write keeps the canonical form. -/
theorem Memory.wf_write (m : Memory) (k : Nat) (v : Byte) (hm : m.wf = true) :
    (m.write k v).wf = true := by
  unfold Memory.write
  split
  · next h => exact Memory.wfFrom_insert m k v 0 hm (Nat.zero_le _) h
  · exact hm

/-- A read after a run of writes. -/
theorem Memory.read_writeAll (m : Memory) (k : Nat) (vs : List Byte) (j : Nat)
    (hk : k + vs.length ≤ Config.maxLen) :
    (m.writeAll k vs).read j = if k ≤ j ∧ j < k + vs.length then vs[j - k]? else m.read j := by
  induction vs generalizing m k with
  | nil => simp [Memory.writeAll]
  | cons v vs ih =>
    simp only [List.length_cons] at hk
    rw [Memory.writeAll, ih _ _ (by omega), Memory.read_write]
    rcases Nat.lt_trichotomy j k with h | h | h
    · simp [show ¬(k + 1 ≤ j) by omega, show ¬(k ≤ j) by omega, show k ≠ j by omega]
    · subst h; simp [show j < Config.maxLen by omega]
    · obtain ⟨d, rfl⟩ : ∃ d, j = k + 1 + d := ⟨j - k - 1, by omega⟩
      have e1 : k + 1 + d - k = d + 1 := by omega
      have e2 : k + 1 + d - (k + 1) = d := by omega
      simp only [e1, e2, List.getElem?_cons_succ, List.length_cons,
        show k + 1 ≤ k + 1 + d from by omega, show k ≤ k + 1 + d from by omega,
        show ¬(k = k + 1 + d) from by omega, true_and, false_and, if_false]
      split <;> split <;> first | rfl | omega

/-- A run of writes keeps the canonical form. -/
theorem Memory.wf_writeAll (m : Memory) (k : Nat) (vs : List Byte) (hm : m.wf = true) :
    (m.writeAll k vs).wf = true := by
  induction vs generalizing m k with
  | nil => exact hm
  | cons v vs ih => exact ih _ _ (Memory.wf_write m k v hm)

/-- A buffer is filled up to `n` when every byte below `n` has a specified value. -/
theorem Memory.filled_iff (m : Memory) (n : Nat) :
    m.filled n = true ↔ ∀ k, k < n → (m.read k).isSome = true := by
  simp [Memory.filled]

/-- No index below the lower end is listed. -/
theorem Memory.read_below (m : Memory) (lo k : Nat) (hm : m.wfFrom lo = true) (hk : k < lo) :
    m.read k = none := by
  induction m generalizing lo with
  | nil => rfl
  | cons c m ih =>
    obtain ⟨a, b⟩ := c
    obtain ⟨h1, _, h3⟩ := (Memory.wfFrom_cons a b m lo).mp hm
    simp [show a ≠ k by omega, ih (a + 1) h3 (by omega)]

/-- No index at or above `MAXLEN` is listed. -/
theorem Memory.read_above (m : Memory) (lo k : Nat) (hm : m.wfFrom lo = true)
    (hk : Config.maxLen ≤ k) : m.read k = none := by
  induction m generalizing lo with
  | nil => rfl
  | cons c m ih =>
    obtain ⟨a, b⟩ := c
    obtain ⟨_, h2, h3⟩ := (Memory.wfFrom_cons a b m lo).mp hm
    simp [show a ≠ k by omega, ih (a + 1) h3]

/-- The form is canonical: two memories in it that read alike are equal data. -/
theorem Memory.ext_from (m m' : Memory) (lo : Nat) (hm : m.wfFrom lo = true)
    (hm' : m'.wfFrom lo = true) (h : ∀ k, m.read k = m'.read k) : m = m' := by
  induction m generalizing m' lo with
  | nil =>
    cases m' with
    | nil => rfl
    | cons c m' => obtain ⟨a', b'⟩ := c; simpa using h a'
  | cons c m ih =>
    obtain ⟨a, b⟩ := c
    obtain ⟨_, _, h3⟩ := (Memory.wfFrom_cons a b m lo).mp hm
    cases m' with
    | nil => simpa using h a
    | cons c' m' =>
      obtain ⟨a', b'⟩ := c'
      obtain ⟨_, _, h3'⟩ := (Memory.wfFrom_cons a' b' m' lo).mp hm'
      have haa : a = a' := by
        by_contra hne
        rcases Nat.lt_or_gt_of_ne hne with hlt | hgt
        · have := h a
          simp [Ne.symm hne, Memory.read_below m' (a' + 1) a h3' (by omega)] at this
        · have := h a'
          simp [hne, Memory.read_below m (a + 1) a' h3 (by omega)] at this
      subst haa
      have hb : b = b' := by simpa using h a
      subst hb
      have := ih m' (a + 1) h3 h3' fun k => by
        by_cases hk : a = k
        · subst hk
          rw [Memory.read_below m (a + 1) a h3 (by omega), Memory.read_below m' (a + 1) a h3' (by omega)]
        · simpa [hk] using h k
      rw [this]

theorem Memory.ext_of_read (m m' : Memory) (hm : m.wf = true) (hm' : m'.wf = true)
    (h : ∀ k, m.read k = m'.read k) : m = m' := Memory.ext_from m m' 0 hm hm' h

end Sys2Proof.Machine
end

