-- ==== Sys2Proof/Laws/State.lean ====
section
/-! SUPPORT. One lemma per field of State for each named update of it, so that no proof unfolds a record
update. -/

namespace Sys2Proof.Machine

/-! ### `clearResult` (R116, R182) -/

section

variable (s : State)

@[simp] theorem clearResult_ob : (clearResult s).ob = s.ob := rfl
@[simp] theorem clearResult_ib : (clearResult s).ib = s.ib := rfl
@[simp] theorem clearResult_tx : (clearResult s).tx = s.tx := rfl
@[simp] theorem clearResult_len : (clearResult s).len = s.len := rfl
@[simp] theorem clearResult_ilen : (clearResult s).ilen = s.ilen := rfl
@[simp] theorem clearResult_css : (clearResult s).css = s.css := rfl
@[simp] theorem clearResult_phase : (clearResult s).phase = s.phase := rfl
@[simp] theorem clearResult_done : (clearResult s).done = false := rfl
@[simp] theorem clearResult_err : (clearResult s).err = false := rfl
@[simp] theorem clearResult_ibvalid : (clearResult s).ibvalid = s.ibvalid := rfl
@[simp] theorem clearResult_ecode : (clearResult s).ecode = .eNone := rfl
@[simp] theorem clearResult_fph : (clearResult s).fph = .idle := rfl
@[simp] theorem clearResult_lerr : (clearResult s).lerr = Config.freeLerr s.draws := rfl
@[simp] theorem clearResult_csen : (clearResult s).csen = s.csen := rfl
@[simp] theorem clearResult_k : (clearResult s).k = s.k := rfl
@[simp] theorem clearResult_t : (clearResult s).t = s.t := rfl
@[simp] theorem clearResult_waiting : (clearResult s).waiting = s.waiting := rfl
@[simp] theorem clearResult_revIn : (clearResult s).revIn = s.revIn := rfl
@[simp] theorem clearResult_rdata : (clearResult s).rdata = s.rdata := rfl
@[simp] theorem clearResult_line : (clearResult s).line = s.line := rfl
@[simp] theorem clearResult_linkLog : (clearResult s).linkLog = s.linkLog := rfl
@[simp] theorem clearResult_host : (clearResult s).host = s.host := rfl
@[simp] theorem clearResult_link : (clearResult s).link = s.link := rfl
@[simp] theorem clearResult_hostState : (clearResult s).hostState = s.hostState := rfl
@[simp] theorem clearResult_device : (clearResult s).device = s.device := rfl
@[simp] theorem clearResult_stage : (clearResult s).stage = s.stage := rfl
@[simp] theorem clearResult_recovery : (clearResult s).recovery = s.recovery := rfl
@[simp] theorem clearResult_emitted : (clearResult s).emitted = s.emitted := rfl
@[simp] theorem clearResult_draws : (clearResult s).draws = s.draws + 1 := rfl
@[simp] theorem clearResult_epoch : (clearResult s).epoch = s.epoch := rfl

end

/-! ### `complete` (R17) -/

section

variable (s : State)

@[simp] theorem complete_ob : (complete s).ob = s.ob := rfl
@[simp] theorem complete_ib : (complete s).ib = s.ib := rfl
@[simp] theorem complete_tx : (complete s).tx = s.tx := rfl
@[simp] theorem complete_len : (complete s).len = s.len := rfl
@[simp] theorem complete_ilen : (complete s).ilen = s.ilen := rfl
@[simp] theorem complete_css : (complete s).css = s.css := rfl
@[simp] theorem complete_phase : (complete s).phase = .idle := rfl
@[simp] theorem complete_done : (complete s).done = true := rfl
@[simp] theorem complete_err : (complete s).err = s.err := rfl
@[simp] theorem complete_ibvalid : (complete s).ibvalid = s.ibvalid := rfl
@[simp] theorem complete_ecode : (complete s).ecode = s.ecode := rfl
@[simp] theorem complete_fph : (complete s).fph = s.fph := rfl
@[simp] theorem complete_lerr : (complete s).lerr = s.lerr := rfl
@[simp] theorem complete_csen : (complete s).csen = s.csen := rfl
@[simp] theorem complete_k : (complete s).k = s.k := rfl
@[simp] theorem complete_t : (complete s).t = s.t := rfl
@[simp] theorem complete_waiting : (complete s).waiting = s.waiting := rfl
@[simp] theorem complete_revIn : (complete s).revIn = s.revIn := rfl
@[simp] theorem complete_rdata : (complete s).rdata = s.rdata := rfl
@[simp] theorem complete_line : (complete s).line = s.line := rfl
@[simp] theorem complete_linkLog : (complete s).linkLog = s.linkLog := rfl
@[simp] theorem complete_host : (complete s).host = s.host := rfl
@[simp] theorem complete_link : (complete s).link = s.link := rfl
@[simp] theorem complete_hostState : (complete s).hostState = s.hostState := rfl
@[simp] theorem complete_device : (complete s).device = s.device := rfl
@[simp] theorem complete_stage : (complete s).stage = s.stage := rfl
@[simp] theorem complete_recovery : (complete s).recovery = s.recovery := rfl
@[simp] theorem complete_emitted : (complete s).emitted = s.emitted := rfl
@[simp] theorem complete_draws : (complete s).draws = s.draws := rfl
@[simp] theorem complete_epoch : (complete s).epoch = s.epoch := rfl

end

/-! ### `awaitLink` (R134) -/

section

variable (s : State)

@[simp] theorem awaitLink_ob : (awaitLink s).ob = s.ob := rfl
@[simp] theorem awaitLink_ib : (awaitLink s).ib = s.ib := rfl
@[simp] theorem awaitLink_tx : (awaitLink s).tx = s.tx := rfl
@[simp] theorem awaitLink_len : (awaitLink s).len = s.len := rfl
@[simp] theorem awaitLink_ilen : (awaitLink s).ilen = s.ilen := rfl
@[simp] theorem awaitLink_css : (awaitLink s).css = s.css := rfl
@[simp] theorem awaitLink_phase : (awaitLink s).phase = s.phase := rfl
@[simp] theorem awaitLink_done : (awaitLink s).done = s.done := rfl
@[simp] theorem awaitLink_err : (awaitLink s).err = s.err := rfl
@[simp] theorem awaitLink_ibvalid : (awaitLink s).ibvalid = s.ibvalid := rfl
@[simp] theorem awaitLink_ecode : (awaitLink s).ecode = s.ecode := rfl
@[simp] theorem awaitLink_fph : (awaitLink s).fph = s.fph := rfl
@[simp] theorem awaitLink_lerr : (awaitLink s).lerr = s.lerr := rfl
@[simp] theorem awaitLink_csen : (awaitLink s).csen = s.csen := rfl
@[simp] theorem awaitLink_k : (awaitLink s).k = s.k := rfl
@[simp] theorem awaitLink_t : (awaitLink s).t = s.t := rfl
@[simp] theorem awaitLink_waiting : (awaitLink s).waiting = true := rfl
@[simp] theorem awaitLink_revIn : (awaitLink s).revIn = s.revIn := rfl
@[simp] theorem awaitLink_rdata : (awaitLink s).rdata = s.rdata := rfl
@[simp] theorem awaitLink_line : (awaitLink s).line = s.line := rfl
@[simp] theorem awaitLink_linkLog : (awaitLink s).linkLog = s.linkLog := rfl
@[simp] theorem awaitLink_host : (awaitLink s).host = s.host := rfl
@[simp] theorem awaitLink_link : (awaitLink s).link = afterSilence s.link := rfl
@[simp] theorem awaitLink_hostState : (awaitLink s).hostState = s.hostState := rfl
@[simp] theorem awaitLink_device : (awaitLink s).device = s.device := rfl
@[simp] theorem awaitLink_stage : (awaitLink s).stage = s.stage := rfl
@[simp] theorem awaitLink_recovery : (awaitLink s).recovery = s.recovery := rfl
@[simp] theorem awaitLink_emitted : (awaitLink s).emitted = s.emitted := rfl
@[simp] theorem awaitLink_draws : (awaitLink s).draws = s.draws := rfl
@[simp] theorem awaitLink_epoch : (awaitLink s).epoch = s.epoch := rfl

end

/-! ### `answered` (R23) -/

section

variable (ev : LinkEvent) (rest : List LinkInput) (s : State)

@[simp] theorem answered_ob : (answered ev rest s).ob = s.ob := rfl
@[simp] theorem answered_ib : (answered ev rest s).ib = s.ib := rfl
@[simp] theorem answered_tx : (answered ev rest s).tx = s.tx := rfl
@[simp] theorem answered_len : (answered ev rest s).len = s.len := rfl
@[simp] theorem answered_ilen : (answered ev rest s).ilen = s.ilen := rfl
@[simp] theorem answered_css : (answered ev rest s).css = s.css := rfl
@[simp] theorem answered_phase : (answered ev rest s).phase = s.phase := rfl
@[simp] theorem answered_done : (answered ev rest s).done = s.done := rfl
@[simp] theorem answered_err : (answered ev rest s).err = s.err := rfl
@[simp] theorem answered_ibvalid : (answered ev rest s).ibvalid = s.ibvalid := rfl
@[simp] theorem answered_ecode : (answered ev rest s).ecode = s.ecode := rfl
@[simp] theorem answered_fph : (answered ev rest s).fph = s.fph := rfl
@[simp] theorem answered_lerr : (answered ev rest s).lerr = s.lerr := rfl
@[simp] theorem answered_csen : (answered ev rest s).csen = s.csen := rfl
@[simp] theorem answered_k : (answered ev rest s).k = s.k := rfl
@[simp] theorem answered_t : (answered ev rest s).t = s.t := rfl
@[simp] theorem answered_waiting : (answered ev rest s).waiting = false := rfl
@[simp] theorem answered_revIn : (answered ev rest s).revIn = s.revIn := rfl
@[simp] theorem answered_rdata : (answered ev rest s).rdata = s.rdata := rfl
@[simp] theorem answered_line : (answered ev rest s).line = s.line := rfl
@[simp] theorem answered_linkLog : (answered ev rest s).linkLog = s.linkLog ++ [ev] := rfl
@[simp] theorem answered_host : (answered ev rest s).host = s.host := rfl
@[simp] theorem answered_link : (answered ev rest s).link = rest := rfl
@[simp] theorem answered_hostState : (answered ev rest s).hostState = s.hostState := rfl
@[simp] theorem answered_device : (answered ev rest s).device = s.device := rfl
@[simp] theorem answered_stage : (answered ev rest s).stage = s.stage := rfl
@[simp] theorem answered_recovery : (answered ev rest s).recovery = s.recovery := rfl
@[simp] theorem answered_emitted : (answered ev rest s).emitted = s.emitted := rfl
@[simp] theorem answered_draws : (answered ev rest s).draws = s.draws := rfl
@[simp] theorem answered_epoch : (answered ev rest s).epoch = s.epoch := rfl

end

/-! ### `lineMoved` (R104, R108) -/

section

variable (v : ControlVerb) (s : State)

@[simp] theorem lineMoved_ob : (lineMoved v s).ob = s.ob := rfl
@[simp] theorem lineMoved_ib : (lineMoved v s).ib = s.ib := rfl
@[simp] theorem lineMoved_tx : (lineMoved v s).tx = s.tx := rfl
@[simp] theorem lineMoved_len : (lineMoved v s).len = s.len := rfl
@[simp] theorem lineMoved_ilen : (lineMoved v s).ilen = s.ilen := rfl
@[simp] theorem lineMoved_css : (lineMoved v s).css = cssAfter v := rfl
@[simp] theorem lineMoved_phase : (lineMoved v s).phase = s.phase := rfl
@[simp] theorem lineMoved_done : (lineMoved v s).done = s.done := rfl
@[simp] theorem lineMoved_err : (lineMoved v s).err = s.err := rfl
@[simp] theorem lineMoved_ibvalid : (lineMoved v s).ibvalid = s.ibvalid := rfl
@[simp] theorem lineMoved_ecode : (lineMoved v s).ecode = s.ecode := rfl
@[simp] theorem lineMoved_fph : (lineMoved v s).fph = s.fph := rfl
@[simp] theorem lineMoved_lerr : (lineMoved v s).lerr = s.lerr := rfl
@[simp] theorem lineMoved_csen : (lineMoved v s).csen = s.csen := rfl
@[simp] theorem lineMoved_k : (lineMoved v s).k = s.k := rfl
@[simp] theorem lineMoved_t : (lineMoved v s).t = s.t := rfl
@[simp] theorem lineMoved_waiting : (lineMoved v s).waiting = s.waiting := rfl
@[simp] theorem lineMoved_revIn : (lineMoved v s).revIn = s.revIn := rfl
@[simp] theorem lineMoved_rdata : (lineMoved v s).rdata = s.rdata := rfl
@[simp] theorem lineMoved_line : (lineMoved v s).line = lineAfter v := rfl
@[simp] theorem lineMoved_linkLog : (lineMoved v s).linkLog = s.linkLog := rfl
@[simp] theorem lineMoved_host : (lineMoved v s).host = s.host := rfl
@[simp] theorem lineMoved_link : (lineMoved v s).link = s.link := rfl
@[simp] theorem lineMoved_hostState : (lineMoved v s).hostState = s.hostState := rfl
@[simp] theorem lineMoved_device : (lineMoved v s).device = s.device := rfl
@[simp] theorem lineMoved_stage : (lineMoved v s).stage = s.stage := rfl
@[simp] theorem lineMoved_recovery : (lineMoved v s).recovery = s.recovery := rfl
@[simp] theorem lineMoved_emitted : (lineMoved v s).emitted = s.emitted := rfl
@[simp] theorem lineMoved_draws : (lineMoved v s).draws = s.draws := rfl
@[simp] theorem lineMoved_epoch : (lineMoved v s).epoch = s.epoch := rfl

end

/-! ### `lineLost` (R104, R108) -/

section

variable (s : State)

@[simp] theorem lineLost_ob : (lineLost s).ob = s.ob := rfl
@[simp] theorem lineLost_ib : (lineLost s).ib = s.ib := rfl
@[simp] theorem lineLost_tx : (lineLost s).tx = s.tx := rfl
@[simp] theorem lineLost_len : (lineLost s).len = s.len := rfl
@[simp] theorem lineLost_ilen : (lineLost s).ilen = s.ilen := rfl
@[simp] theorem lineLost_css : (lineLost s).css = .unknown := rfl
@[simp] theorem lineLost_phase : (lineLost s).phase = s.phase := rfl
@[simp] theorem lineLost_done : (lineLost s).done = s.done := rfl
@[simp] theorem lineLost_err : (lineLost s).err = s.err := rfl
@[simp] theorem lineLost_ibvalid : (lineLost s).ibvalid = s.ibvalid := rfl
@[simp] theorem lineLost_ecode : (lineLost s).ecode = s.ecode := rfl
@[simp] theorem lineLost_fph : (lineLost s).fph = s.fph := rfl
@[simp] theorem lineLost_lerr : (lineLost s).lerr = s.lerr := rfl
@[simp] theorem lineLost_csen : (lineLost s).csen = s.csen := rfl
@[simp] theorem lineLost_k : (lineLost s).k = s.k := rfl
@[simp] theorem lineLost_t : (lineLost s).t = s.t := rfl
@[simp] theorem lineLost_waiting : (lineLost s).waiting = s.waiting := rfl
@[simp] theorem lineLost_revIn : (lineLost s).revIn = s.revIn := rfl
@[simp] theorem lineLost_rdata : (lineLost s).rdata = s.rdata := rfl
@[simp] theorem lineLost_line : (lineLost s).line = Config.freeLine s.draws := rfl
@[simp] theorem lineLost_linkLog : (lineLost s).linkLog = s.linkLog := rfl
@[simp] theorem lineLost_host : (lineLost s).host = s.host := rfl
@[simp] theorem lineLost_link : (lineLost s).link = s.link := rfl
@[simp] theorem lineLost_hostState : (lineLost s).hostState = s.hostState := rfl
@[simp] theorem lineLost_device : (lineLost s).device = s.device := rfl
@[simp] theorem lineLost_stage : (lineLost s).stage = s.stage := rfl
@[simp] theorem lineLost_recovery : (lineLost s).recovery = s.recovery := rfl
@[simp] theorem lineLost_emitted : (lineLost s).emitted = s.emitted := rfl
@[simp] theorem lineLost_draws : (lineLost s).draws = s.draws + 1 := rfl
@[simp] theorem lineLost_epoch : (lineLost s).epoch = s.epoch := rfl

end

/-! ### `raiseErr` (R180) -/

section

variable (b : Bool) (c : ECode) (e : LinkError) (s : State)

@[simp] theorem raiseErr_ob : (raiseErr b c e s).ob = s.ob := rfl
@[simp] theorem raiseErr_ib : (raiseErr b c e s).ib = s.ib := rfl
@[simp] theorem raiseErr_tx : (raiseErr b c e s).tx = s.tx := rfl
@[simp] theorem raiseErr_len : (raiseErr b c e s).len = s.len := rfl
@[simp] theorem raiseErr_ilen : (raiseErr b c e s).ilen = if b then 0 else s.ilen := rfl
@[simp] theorem raiseErr_css : (raiseErr b c e s).css = s.css := rfl
@[simp] theorem raiseErr_phase : (raiseErr b c e s).phase = .idle := rfl
@[simp] theorem raiseErr_done : (raiseErr b c e s).done = false := rfl
@[simp] theorem raiseErr_err : (raiseErr b c e s).err = true := rfl
@[simp] theorem raiseErr_ibvalid : (raiseErr b c e s).ibvalid = if b then false else s.ibvalid := rfl
@[simp] theorem raiseErr_ecode : (raiseErr b c e s).ecode = c := rfl
@[simp] theorem raiseErr_fph : (raiseErr b c e s).fph = s.phase := rfl
@[simp] theorem raiseErr_lerr : (raiseErr b c e s).lerr = e := rfl
@[simp] theorem raiseErr_csen : (raiseErr b c e s).csen = s.csen := rfl
@[simp] theorem raiseErr_k : (raiseErr b c e s).k = s.k := rfl
@[simp] theorem raiseErr_t : (raiseErr b c e s).t = s.t := rfl
@[simp] theorem raiseErr_waiting : (raiseErr b c e s).waiting = s.waiting := rfl
@[simp] theorem raiseErr_revIn : (raiseErr b c e s).revIn = s.revIn := rfl
@[simp] theorem raiseErr_rdata : (raiseErr b c e s).rdata = s.rdata := rfl
@[simp] theorem raiseErr_line : (raiseErr b c e s).line = s.line := rfl
@[simp] theorem raiseErr_linkLog : (raiseErr b c e s).linkLog = s.linkLog := rfl
@[simp] theorem raiseErr_host : (raiseErr b c e s).host = s.host := rfl
@[simp] theorem raiseErr_link : (raiseErr b c e s).link = s.link := rfl
@[simp] theorem raiseErr_hostState : (raiseErr b c e s).hostState = s.hostState := rfl
@[simp] theorem raiseErr_device : (raiseErr b c e s).device = s.device := rfl
@[simp] theorem raiseErr_stage : (raiseErr b c e s).stage = s.stage := rfl
@[simp] theorem raiseErr_recovery : (raiseErr b c e s).recovery = s.recovery := rfl
@[simp] theorem raiseErr_emitted : (raiseErr b c e s).emitted = s.emitted := rfl
@[simp] theorem raiseErr_draws : (raiseErr b c e s).draws = s.draws := rfl
@[simp] theorem raiseErr_epoch : (raiseErr b c e s).epoch = s.epoch := rfl

end

/-! ### `failTransact` (R12, R180) -/

section

variable (c : ECode) (e : LinkError) (s : State)

@[simp] theorem failTransact_ob : (failTransact c e s).ob = s.ob := rfl
@[simp] theorem failTransact_ib : (failTransact c e s).ib = [] := rfl
@[simp] theorem failTransact_tx : (failTransact c e s).tx = s.tx := rfl
@[simp] theorem failTransact_len : (failTransact c e s).len = s.len := rfl
@[simp] theorem failTransact_ilen : (failTransact c e s).ilen = 0 := rfl
@[simp] theorem failTransact_css : (failTransact c e s).css = s.css := rfl
@[simp] theorem failTransact_phase : (failTransact c e s).phase = .idle := rfl
@[simp] theorem failTransact_done : (failTransact c e s).done = false := rfl
@[simp] theorem failTransact_err : (failTransact c e s).err = true := rfl
@[simp] theorem failTransact_ibvalid : (failTransact c e s).ibvalid = false := rfl
@[simp] theorem failTransact_ecode : (failTransact c e s).ecode = c := rfl
@[simp] theorem failTransact_fph : (failTransact c e s).fph = s.phase := rfl
@[simp] theorem failTransact_lerr : (failTransact c e s).lerr = e := rfl
@[simp] theorem failTransact_csen : (failTransact c e s).csen = s.csen := rfl
@[simp] theorem failTransact_k : (failTransact c e s).k = s.k := rfl
@[simp] theorem failTransact_t : (failTransact c e s).t = s.t := rfl
@[simp] theorem failTransact_waiting : (failTransact c e s).waiting = s.waiting := rfl
@[simp] theorem failTransact_revIn : (failTransact c e s).revIn = s.revIn := rfl
@[simp] theorem failTransact_rdata : (failTransact c e s).rdata = s.rdata := rfl
@[simp] theorem failTransact_line : (failTransact c e s).line = s.line := rfl
@[simp] theorem failTransact_linkLog : (failTransact c e s).linkLog = s.linkLog := rfl
@[simp] theorem failTransact_host : (failTransact c e s).host = s.host := rfl
@[simp] theorem failTransact_link : (failTransact c e s).link = s.link := rfl
@[simp] theorem failTransact_hostState : (failTransact c e s).hostState = s.hostState := rfl
@[simp] theorem failTransact_device : (failTransact c e s).device = s.device := rfl
@[simp] theorem failTransact_stage : (failTransact c e s).stage = s.stage := rfl
@[simp] theorem failTransact_recovery : (failTransact c e s).recovery = s.recovery := rfl
@[simp] theorem failTransact_emitted : (failTransact c e s).emitted = s.emitted := rfl
@[simp] theorem failTransact_draws : (failTransact c e s).draws = s.draws := rfl
@[simp] theorem failTransact_epoch : (failTransact c e s).epoch = s.epoch := rfl

end

/-! ### `raiseOwn` (R18, R180) -/

section

variable (b : Bool) (c : ECode) (s : State)

@[simp] theorem raiseOwn_ob : (raiseOwn b c s).ob = s.ob := rfl
@[simp] theorem raiseOwn_ib : (raiseOwn b c s).ib = s.ib := rfl
@[simp] theorem raiseOwn_tx : (raiseOwn b c s).tx = s.tx := rfl
@[simp] theorem raiseOwn_len : (raiseOwn b c s).len = s.len := rfl
@[simp] theorem raiseOwn_ilen : (raiseOwn b c s).ilen = if b then 0 else s.ilen := rfl
@[simp] theorem raiseOwn_css : (raiseOwn b c s).css = s.css := rfl
@[simp] theorem raiseOwn_phase : (raiseOwn b c s).phase = .idle := rfl
@[simp] theorem raiseOwn_done : (raiseOwn b c s).done = false := rfl
@[simp] theorem raiseOwn_err : (raiseOwn b c s).err = true := rfl
@[simp] theorem raiseOwn_ibvalid : (raiseOwn b c s).ibvalid = if b then false else s.ibvalid := rfl
@[simp] theorem raiseOwn_ecode : (raiseOwn b c s).ecode = c := rfl
@[simp] theorem raiseOwn_fph : (raiseOwn b c s).fph = s.phase := rfl
@[simp] theorem raiseOwn_lerr : (raiseOwn b c s).lerr = Config.freeLerr s.draws := rfl
@[simp] theorem raiseOwn_csen : (raiseOwn b c s).csen = s.csen := rfl
@[simp] theorem raiseOwn_k : (raiseOwn b c s).k = s.k := rfl
@[simp] theorem raiseOwn_t : (raiseOwn b c s).t = s.t := rfl
@[simp] theorem raiseOwn_waiting : (raiseOwn b c s).waiting = s.waiting := rfl
@[simp] theorem raiseOwn_revIn : (raiseOwn b c s).revIn = s.revIn := rfl
@[simp] theorem raiseOwn_rdata : (raiseOwn b c s).rdata = s.rdata := rfl
@[simp] theorem raiseOwn_line : (raiseOwn b c s).line = s.line := rfl
@[simp] theorem raiseOwn_linkLog : (raiseOwn b c s).linkLog = s.linkLog := rfl
@[simp] theorem raiseOwn_host : (raiseOwn b c s).host = s.host := rfl
@[simp] theorem raiseOwn_link : (raiseOwn b c s).link = s.link := rfl
@[simp] theorem raiseOwn_hostState : (raiseOwn b c s).hostState = s.hostState := rfl
@[simp] theorem raiseOwn_device : (raiseOwn b c s).device = s.device := rfl
@[simp] theorem raiseOwn_stage : (raiseOwn b c s).stage = s.stage := rfl
@[simp] theorem raiseOwn_recovery : (raiseOwn b c s).recovery = s.recovery := rfl
@[simp] theorem raiseOwn_emitted : (raiseOwn b c s).emitted = s.emitted := rfl
@[simp] theorem raiseOwn_draws : (raiseOwn b c s).draws = s.draws + 1 := rfl
@[simp] theorem raiseOwn_epoch : (raiseOwn b c s).epoch = s.epoch := rfl

end

/-! ### `beginSetcs` (R100) -/

section

variable (en : Bool) (s : State)

@[simp] theorem beginSetcs_ob : (beginSetcs en s).ob = s.ob := rfl
@[simp] theorem beginSetcs_ib : (beginSetcs en s).ib = s.ib := rfl
@[simp] theorem beginSetcs_tx : (beginSetcs en s).tx = s.tx := rfl
@[simp] theorem beginSetcs_len : (beginSetcs en s).len = s.len := rfl
@[simp] theorem beginSetcs_ilen : (beginSetcs en s).ilen = s.ilen := rfl
@[simp] theorem beginSetcs_css : (beginSetcs en s).css = s.css := rfl
@[simp] theorem beginSetcs_phase : (beginSetcs en s).phase = .csOnly := rfl
@[simp] theorem beginSetcs_done : (beginSetcs en s).done = false := rfl
@[simp] theorem beginSetcs_err : (beginSetcs en s).err = false := rfl
@[simp] theorem beginSetcs_ibvalid : (beginSetcs en s).ibvalid = s.ibvalid := rfl
@[simp] theorem beginSetcs_ecode : (beginSetcs en s).ecode = .eNone := rfl
@[simp] theorem beginSetcs_fph : (beginSetcs en s).fph = .idle := rfl
@[simp] theorem beginSetcs_lerr : (beginSetcs en s).lerr = Config.freeLerr s.draws := rfl
@[simp] theorem beginSetcs_csen : (beginSetcs en s).csen = en := rfl
@[simp] theorem beginSetcs_k : (beginSetcs en s).k = s.k := rfl
@[simp] theorem beginSetcs_t : (beginSetcs en s).t = s.t := rfl
@[simp] theorem beginSetcs_waiting : (beginSetcs en s).waiting = s.waiting := rfl
@[simp] theorem beginSetcs_revIn : (beginSetcs en s).revIn = s.revIn := rfl
@[simp] theorem beginSetcs_rdata : (beginSetcs en s).rdata = s.rdata := rfl
@[simp] theorem beginSetcs_line : (beginSetcs en s).line = s.line := rfl
@[simp] theorem beginSetcs_linkLog : (beginSetcs en s).linkLog = s.linkLog := rfl
@[simp] theorem beginSetcs_host : (beginSetcs en s).host = s.host := rfl
@[simp] theorem beginSetcs_link : (beginSetcs en s).link = s.link := rfl
@[simp] theorem beginSetcs_hostState : (beginSetcs en s).hostState = s.hostState := rfl
@[simp] theorem beginSetcs_device : (beginSetcs en s).device = s.device := rfl
@[simp] theorem beginSetcs_stage : (beginSetcs en s).stage = s.stage := rfl
@[simp] theorem beginSetcs_recovery : (beginSetcs en s).recovery = s.recovery := rfl
@[simp] theorem beginSetcs_emitted : (beginSetcs en s).emitted = s.emitted := rfl
@[simp] theorem beginSetcs_draws : (beginSetcs en s).draws = s.draws + 1 := rfl
@[simp] theorem beginSetcs_epoch : (beginSetcs en s).epoch = s.epoch := rfl

end

/-! ### `clearResponse` (R116) -/

section

variable (s : State)

@[simp] theorem clearResponse_ob : (clearResponse s).ob = s.ob := rfl
@[simp] theorem clearResponse_ib : (clearResponse s).ib = s.ib := rfl
@[simp] theorem clearResponse_tx : (clearResponse s).tx = s.tx := rfl
@[simp] theorem clearResponse_len : (clearResponse s).len = s.len := rfl
@[simp] theorem clearResponse_ilen : (clearResponse s).ilen = 0 := rfl
@[simp] theorem clearResponse_css : (clearResponse s).css = s.css := rfl
@[simp] theorem clearResponse_phase : (clearResponse s).phase = s.phase := rfl
@[simp] theorem clearResponse_done : (clearResponse s).done = false := rfl
@[simp] theorem clearResponse_err : (clearResponse s).err = false := rfl
@[simp] theorem clearResponse_ibvalid : (clearResponse s).ibvalid = false := rfl
@[simp] theorem clearResponse_ecode : (clearResponse s).ecode = .eNone := rfl
@[simp] theorem clearResponse_fph : (clearResponse s).fph = .idle := rfl
@[simp] theorem clearResponse_lerr : (clearResponse s).lerr = Config.freeLerr s.draws := rfl
@[simp] theorem clearResponse_csen : (clearResponse s).csen = s.csen := rfl
@[simp] theorem clearResponse_k : (clearResponse s).k = s.k := rfl
@[simp] theorem clearResponse_t : (clearResponse s).t = s.t := rfl
@[simp] theorem clearResponse_waiting : (clearResponse s).waiting = s.waiting := rfl
@[simp] theorem clearResponse_revIn : (clearResponse s).revIn = s.revIn := rfl
@[simp] theorem clearResponse_rdata : (clearResponse s).rdata = s.rdata := rfl
@[simp] theorem clearResponse_line : (clearResponse s).line = s.line := rfl
@[simp] theorem clearResponse_linkLog : (clearResponse s).linkLog = s.linkLog := rfl
@[simp] theorem clearResponse_host : (clearResponse s).host = s.host := rfl
@[simp] theorem clearResponse_link : (clearResponse s).link = s.link := rfl
@[simp] theorem clearResponse_hostState : (clearResponse s).hostState = s.hostState := rfl
@[simp] theorem clearResponse_device : (clearResponse s).device = s.device := rfl
@[simp] theorem clearResponse_stage : (clearResponse s).stage = s.stage := rfl
@[simp] theorem clearResponse_recovery : (clearResponse s).recovery = s.recovery := rfl
@[simp] theorem clearResponse_emitted : (clearResponse s).emitted = s.emitted := rfl
@[simp] theorem clearResponse_draws : (clearResponse s).draws = s.draws + 1 := rfl
@[simp] theorem clearResponse_epoch : (clearResponse s).epoch = s.epoch := rfl

end

/-! ### `beginTransact` (R115) -/

section

variable (n : Nat) (s : State)

@[simp] theorem beginTransact_ob : (beginTransact n s).ob = s.ob := rfl
@[simp] theorem beginTransact_ib : (beginTransact n s).ib = [] := rfl
@[simp] theorem beginTransact_tx : (beginTransact n s).tx = [] := rfl
@[simp] theorem beginTransact_len : (beginTransact n s).len = BitVec.ofNat 13 n := rfl
@[simp] theorem beginTransact_ilen : (beginTransact n s).ilen = 0 := rfl
@[simp] theorem beginTransact_css : (beginTransact n s).css = s.css := rfl
@[simp] theorem beginTransact_phase : (beginTransact n s).phase = .assert := rfl
@[simp] theorem beginTransact_done : (beginTransact n s).done = false := rfl
@[simp] theorem beginTransact_err : (beginTransact n s).err = false := rfl
@[simp] theorem beginTransact_ibvalid : (beginTransact n s).ibvalid = false := rfl
@[simp] theorem beginTransact_ecode : (beginTransact n s).ecode = .eNone := rfl
@[simp] theorem beginTransact_fph : (beginTransact n s).fph = .idle := rfl
@[simp] theorem beginTransact_lerr : (beginTransact n s).lerr = Config.freeLerr s.draws := rfl
@[simp] theorem beginTransact_csen : (beginTransact n s).csen = s.csen := rfl
@[simp] theorem beginTransact_k : (beginTransact n s).k = s.k := rfl
@[simp] theorem beginTransact_t : (beginTransact n s).t = s.t := rfl
@[simp] theorem beginTransact_waiting : (beginTransact n s).waiting = s.waiting := rfl
@[simp] theorem beginTransact_revIn : (beginTransact n s).revIn = s.revIn := rfl
@[simp] theorem beginTransact_rdata : (beginTransact n s).rdata = s.rdata := rfl
@[simp] theorem beginTransact_line : (beginTransact n s).line = s.line := rfl
@[simp] theorem beginTransact_linkLog : (beginTransact n s).linkLog = s.linkLog := rfl
@[simp] theorem beginTransact_host : (beginTransact n s).host = s.host := rfl
@[simp] theorem beginTransact_link : (beginTransact n s).link = s.link := rfl
@[simp] theorem beginTransact_hostState : (beginTransact n s).hostState = s.hostState := rfl
@[simp] theorem beginTransact_device : (beginTransact n s).device = s.device := rfl
@[simp] theorem beginTransact_stage : (beginTransact n s).stage = s.stage := rfl
@[simp] theorem beginTransact_recovery : (beginTransact n s).recovery = s.recovery := rfl
@[simp] theorem beginTransact_emitted : (beginTransact n s).emitted = s.emitted := rfl
@[simp] theorem beginTransact_draws : (beginTransact n s).draws = s.draws + 1 := rfl
@[simp] theorem beginTransact_epoch : (beginTransact n s).epoch = s.epoch := rfl

end

/-! ### `exchangeOk` (R119) -/

section

variable (rx : List Byte) (s : State)

@[simp] theorem exchangeOk_ob : (exchangeOk rx s).ob = s.ob := rfl
@[simp] theorem exchangeOk_ib : (exchangeOk rx s).ib = s.ib.writeAll 0 rx := rfl
@[simp] theorem exchangeOk_tx : (exchangeOk rx s).tx = s.tx := rfl
@[simp] theorem exchangeOk_len : (exchangeOk rx s).len = s.len := rfl
@[simp] theorem exchangeOk_ilen : (exchangeOk rx s).ilen = s.ilen := rfl
@[simp] theorem exchangeOk_css : (exchangeOk rx s).css = s.css := rfl
@[simp] theorem exchangeOk_phase : (exchangeOk rx s).phase = .deassert := rfl
@[simp] theorem exchangeOk_done : (exchangeOk rx s).done = s.done := rfl
@[simp] theorem exchangeOk_err : (exchangeOk rx s).err = s.err := rfl
@[simp] theorem exchangeOk_ibvalid : (exchangeOk rx s).ibvalid = s.ibvalid := rfl
@[simp] theorem exchangeOk_ecode : (exchangeOk rx s).ecode = s.ecode := rfl
@[simp] theorem exchangeOk_fph : (exchangeOk rx s).fph = s.fph := rfl
@[simp] theorem exchangeOk_lerr : (exchangeOk rx s).lerr = s.lerr := rfl
@[simp] theorem exchangeOk_csen : (exchangeOk rx s).csen = s.csen := rfl
@[simp] theorem exchangeOk_k : (exchangeOk rx s).k = s.k := rfl
@[simp] theorem exchangeOk_t : (exchangeOk rx s).t = s.bitcnt := rfl
@[simp] theorem exchangeOk_waiting : (exchangeOk rx s).waiting = s.waiting := rfl
@[simp] theorem exchangeOk_revIn : (exchangeOk rx s).revIn = s.revIn := rfl
@[simp] theorem exchangeOk_rdata : (exchangeOk rx s).rdata = s.rdata := rfl
@[simp] theorem exchangeOk_line : (exchangeOk rx s).line = s.line := rfl
@[simp] theorem exchangeOk_linkLog : (exchangeOk rx s).linkLog = s.linkLog := rfl
@[simp] theorem exchangeOk_host : (exchangeOk rx s).host = s.host := rfl
@[simp] theorem exchangeOk_link : (exchangeOk rx s).link = s.link := rfl
@[simp] theorem exchangeOk_hostState : (exchangeOk rx s).hostState = s.hostState := rfl
@[simp] theorem exchangeOk_device : (exchangeOk rx s).device = s.device := rfl
@[simp] theorem exchangeOk_stage : (exchangeOk rx s).stage = s.stage := rfl
@[simp] theorem exchangeOk_recovery : (exchangeOk rx s).recovery = s.recovery := rfl
@[simp] theorem exchangeOk_emitted : (exchangeOk rx s).emitted = s.emitted := rfl
@[simp] theorem exchangeOk_draws : (exchangeOk rx s).draws = s.draws := rfl
@[simp] theorem exchangeOk_epoch : (exchangeOk rx s).epoch = s.epoch := rfl

end

/-! ### `exchangeFail` (R120) -/

section

variable (e : LinkError) (s : State)

@[simp] theorem exchangeFail_ob : (exchangeFail e s).ob = s.ob := rfl
@[simp] theorem exchangeFail_ib : (exchangeFail e s).ib = [] := rfl
@[simp] theorem exchangeFail_tx : (exchangeFail e s).tx = s.tx := rfl
@[simp] theorem exchangeFail_len : (exchangeFail e s).len = s.len := rfl
@[simp] theorem exchangeFail_ilen : (exchangeFail e s).ilen = 0 := rfl
@[simp] theorem exchangeFail_css : (exchangeFail e s).css = s.css := rfl
@[simp] theorem exchangeFail_phase : (exchangeFail e s).phase = .idle := rfl
@[simp] theorem exchangeFail_done : (exchangeFail e s).done = false := rfl
@[simp] theorem exchangeFail_err : (exchangeFail e s).err = true := rfl
@[simp] theorem exchangeFail_ibvalid : (exchangeFail e s).ibvalid = false := rfl
@[simp] theorem exchangeFail_ecode : (exchangeFail e s).ecode = .eXchg := rfl
@[simp] theorem exchangeFail_fph : (exchangeFail e s).fph = s.phase := rfl
@[simp] theorem exchangeFail_lerr : (exchangeFail e s).lerr = e := rfl
@[simp] theorem exchangeFail_csen : (exchangeFail e s).csen = s.csen := rfl
@[simp] theorem exchangeFail_k : (exchangeFail e s).k = s.k := rfl
@[simp] theorem exchangeFail_t : (exchangeFail e s).t = Config.freeT s.draws := rfl
@[simp] theorem exchangeFail_waiting : (exchangeFail e s).waiting = s.waiting := rfl
@[simp] theorem exchangeFail_revIn : (exchangeFail e s).revIn = s.revIn := rfl
@[simp] theorem exchangeFail_rdata : (exchangeFail e s).rdata = s.rdata := rfl
@[simp] theorem exchangeFail_line : (exchangeFail e s).line = s.line := rfl
@[simp] theorem exchangeFail_linkLog : (exchangeFail e s).linkLog = s.linkLog := rfl
@[simp] theorem exchangeFail_host : (exchangeFail e s).host = s.host := rfl
@[simp] theorem exchangeFail_link : (exchangeFail e s).link = s.link := rfl
@[simp] theorem exchangeFail_hostState : (exchangeFail e s).hostState = s.hostState := rfl
@[simp] theorem exchangeFail_device : (exchangeFail e s).device = s.device := rfl
@[simp] theorem exchangeFail_stage : (exchangeFail e s).stage = s.stage := rfl
@[simp] theorem exchangeFail_recovery : (exchangeFail e s).recovery = s.recovery := rfl
@[simp] theorem exchangeFail_emitted : (exchangeFail e s).emitted = s.emitted := rfl
@[simp] theorem exchangeFail_draws : (exchangeFail e s).draws = s.draws + 1 := rfl
@[simp] theorem exchangeFail_epoch : (exchangeFail e s).epoch = s.epoch := rfl

end

/-! ### `coreReset` (R32, R195) -/

section

variable (s : State)

@[simp] theorem coreReset_ob : (coreReset s).ob = [] := rfl
@[simp] theorem coreReset_ib : (coreReset s).ib = [] := rfl
@[simp] theorem coreReset_tx : (coreReset s).tx = [] := rfl
@[simp] theorem coreReset_len : (coreReset s).len = 0 := rfl
@[simp] theorem coreReset_ilen : (coreReset s).ilen = 0 := rfl
@[simp] theorem coreReset_css : (coreReset s).css = .unknown := rfl
@[simp] theorem coreReset_phase : (coreReset s).phase = .idle := rfl
@[simp] theorem coreReset_done : (coreReset s).done = false := rfl
@[simp] theorem coreReset_err : (coreReset s).err = false := rfl
@[simp] theorem coreReset_ibvalid : (coreReset s).ibvalid = false := rfl
@[simp] theorem coreReset_ecode : (coreReset s).ecode = .eNone := rfl
@[simp] theorem coreReset_fph : (coreReset s).fph = .idle := rfl
@[simp] theorem coreReset_lerr : (coreReset s).lerr = Config.freeLerr s.draws := rfl
@[simp] theorem coreReset_csen : (coreReset s).csen = Config.freeCsen s.draws := rfl
@[simp] theorem coreReset_k : (coreReset s).k = Config.freeK s.draws := rfl
@[simp] theorem coreReset_t : (coreReset s).t = Config.freeT s.draws := rfl
@[simp] theorem coreReset_waiting : (coreReset s).waiting = false := rfl
@[simp] theorem coreReset_revIn : (coreReset s).revIn = s.revIn := rfl
@[simp] theorem coreReset_rdata : (coreReset s).rdata = s.rdata := rfl
@[simp] theorem coreReset_line : (coreReset s).line = if s.busy then Config.freeLine s.draws else s.line := rfl
@[simp] theorem coreReset_linkLog : (coreReset s).linkLog = s.linkLog ++ s.abandoned := rfl
@[simp] theorem coreReset_host : (coreReset s).host = s.host := rfl
@[simp] theorem coreReset_link : (coreReset s).link = s.link := rfl
@[simp] theorem coreReset_hostState : (coreReset s).hostState = s.hostState := rfl
@[simp] theorem coreReset_device : (coreReset s).device = s.device := rfl
@[simp] theorem coreReset_stage : (coreReset s).stage = s.stage := rfl
@[simp] theorem coreReset_recovery : (coreReset s).recovery = s.recovery := rfl
@[simp] theorem coreReset_emitted : (coreReset s).emitted = s.emitted := rfl
@[simp] theorem coreReset_draws : (coreReset s).draws = s.draws + 1 := rfl
@[simp] theorem coreReset_epoch : (coreReset s).epoch = s.epoch + 1 := rfl

end

/-! ### `noteCommand` (R182) -/

section

variable (w : CommandWord) (s : State)

@[simp] theorem noteCommand_ob : (noteCommand w s).ob = s.ob := rfl
@[simp] theorem noteCommand_ib : (noteCommand w s).ib = s.ib := rfl
@[simp] theorem noteCommand_tx : (noteCommand w s).tx = s.tx := rfl
@[simp] theorem noteCommand_len : (noteCommand w s).len = s.len := rfl
@[simp] theorem noteCommand_ilen : (noteCommand w s).ilen = s.ilen := rfl
@[simp] theorem noteCommand_css : (noteCommand w s).css = s.css := rfl
@[simp] theorem noteCommand_phase : (noteCommand w s).phase = s.phase := rfl
@[simp] theorem noteCommand_done : (noteCommand w s).done = s.done := rfl
@[simp] theorem noteCommand_err : (noteCommand w s).err = s.err := rfl
@[simp] theorem noteCommand_ibvalid : (noteCommand w s).ibvalid = s.ibvalid := rfl
@[simp] theorem noteCommand_ecode : (noteCommand w s).ecode = s.ecode := rfl
@[simp] theorem noteCommand_fph : (noteCommand w s).fph = s.fph := rfl
@[simp] theorem noteCommand_lerr : (noteCommand w s).lerr = s.lerr := rfl
@[simp] theorem noteCommand_csen : (noteCommand w s).csen = s.csen := rfl
@[simp] theorem noteCommand_k : (noteCommand w s).k = s.k := rfl
@[simp] theorem noteCommand_t : (noteCommand w s).t = s.t := rfl
@[simp] theorem noteCommand_waiting : (noteCommand w s).waiting = s.waiting := rfl
@[simp] theorem noteCommand_revIn : (noteCommand w s).revIn = s.revIn := rfl
@[simp] theorem noteCommand_rdata : (noteCommand w s).rdata = s.rdata := rfl
@[simp] theorem noteCommand_line : (noteCommand w s).line = s.line := rfl
@[simp] theorem noteCommand_linkLog : (noteCommand w s).linkLog = s.linkLog := rfl
@[simp] theorem noteCommand_host : (noteCommand w s).host = s.host := rfl
@[simp] theorem noteCommand_link : (noteCommand w s).link = s.link := rfl
@[simp] theorem noteCommand_hostState : (noteCommand w s).hostState = s.hostState := rfl
@[simp] theorem noteCommand_device : (noteCommand w s).device = s.device := rfl
@[simp] theorem noteCommand_stage : (noteCommand w s).stage = s.stage := rfl
@[simp] theorem noteCommand_recovery : (noteCommand w s).recovery = recoveryAfter w s := rfl
@[simp] theorem noteCommand_emitted : (noteCommand w s).emitted = s.emitted := rfl
@[simp] theorem noteCommand_draws : (noteCommand w s).draws = s.draws := rfl
@[simp] theorem noteCommand_epoch : (noteCommand w s).epoch = s.epoch := rfl

end

/-! ### `noteReset` (R182, R195) -/

section

variable (s : State)

@[simp] theorem noteReset_ob : (noteReset s).ob = s.ob := rfl
@[simp] theorem noteReset_ib : (noteReset s).ib = s.ib := rfl
@[simp] theorem noteReset_tx : (noteReset s).tx = s.tx := rfl
@[simp] theorem noteReset_len : (noteReset s).len = s.len := rfl
@[simp] theorem noteReset_ilen : (noteReset s).ilen = s.ilen := rfl
@[simp] theorem noteReset_css : (noteReset s).css = s.css := rfl
@[simp] theorem noteReset_phase : (noteReset s).phase = s.phase := rfl
@[simp] theorem noteReset_done : (noteReset s).done = s.done := rfl
@[simp] theorem noteReset_err : (noteReset s).err = s.err := rfl
@[simp] theorem noteReset_ibvalid : (noteReset s).ibvalid = s.ibvalid := rfl
@[simp] theorem noteReset_ecode : (noteReset s).ecode = s.ecode := rfl
@[simp] theorem noteReset_fph : (noteReset s).fph = s.fph := rfl
@[simp] theorem noteReset_lerr : (noteReset s).lerr = s.lerr := rfl
@[simp] theorem noteReset_csen : (noteReset s).csen = s.csen := rfl
@[simp] theorem noteReset_k : (noteReset s).k = s.k := rfl
@[simp] theorem noteReset_t : (noteReset s).t = s.t := rfl
@[simp] theorem noteReset_waiting : (noteReset s).waiting = s.waiting := rfl
@[simp] theorem noteReset_revIn : (noteReset s).revIn = s.revIn := rfl
@[simp] theorem noteReset_rdata : (noteReset s).rdata = s.rdata := rfl
@[simp] theorem noteReset_line : (noteReset s).line = s.line := rfl
@[simp] theorem noteReset_linkLog : (noteReset s).linkLog = s.linkLog := rfl
@[simp] theorem noteReset_host : (noteReset s).host = s.host := rfl
@[simp] theorem noteReset_link : (noteReset s).link = s.link := rfl
@[simp] theorem noteReset_hostState : (noteReset s).hostState = s.hostState := rfl
@[simp] theorem noteReset_device : (noteReset s).device = s.device := rfl
@[simp] theorem noteReset_stage : (noteReset s).stage = s.stage := rfl
@[simp] theorem noteReset_recovery : (noteReset s).recovery = recoveryAfterReset s := rfl
@[simp] theorem noteReset_emitted : (noteReset s).emitted = s.emitted := rfl
@[simp] theorem noteReset_draws : (noteReset s).draws = s.draws := rfl
@[simp] theorem noteReset_epoch : (noteReset s).epoch = s.epoch := rfl

end

/-! ### `doFirst` (R82) -/

section

variable (acts : List HostAction) (s : State)

@[simp] theorem doFirst_ob : (doFirst acts s).ob = s.ob := rfl
@[simp] theorem doFirst_ib : (doFirst acts s).ib = s.ib := rfl
@[simp] theorem doFirst_tx : (doFirst acts s).tx = s.tx := rfl
@[simp] theorem doFirst_len : (doFirst acts s).len = s.len := rfl
@[simp] theorem doFirst_ilen : (doFirst acts s).ilen = s.ilen := rfl
@[simp] theorem doFirst_css : (doFirst acts s).css = s.css := rfl
@[simp] theorem doFirst_phase : (doFirst acts s).phase = s.phase := rfl
@[simp] theorem doFirst_done : (doFirst acts s).done = s.done := rfl
@[simp] theorem doFirst_err : (doFirst acts s).err = s.err := rfl
@[simp] theorem doFirst_ibvalid : (doFirst acts s).ibvalid = s.ibvalid := rfl
@[simp] theorem doFirst_ecode : (doFirst acts s).ecode = s.ecode := rfl
@[simp] theorem doFirst_fph : (doFirst acts s).fph = s.fph := rfl
@[simp] theorem doFirst_lerr : (doFirst acts s).lerr = s.lerr := rfl
@[simp] theorem doFirst_csen : (doFirst acts s).csen = s.csen := rfl
@[simp] theorem doFirst_k : (doFirst acts s).k = s.k := rfl
@[simp] theorem doFirst_t : (doFirst acts s).t = s.t := rfl
@[simp] theorem doFirst_waiting : (doFirst acts s).waiting = s.waiting := rfl
@[simp] theorem doFirst_revIn : (doFirst acts s).revIn = s.revIn := rfl
@[simp] theorem doFirst_rdata : (doFirst acts s).rdata = s.rdata := rfl
@[simp] theorem doFirst_line : (doFirst acts s).line = s.line := rfl
@[simp] theorem doFirst_linkLog : (doFirst acts s).linkLog = s.linkLog := rfl
@[simp] theorem doFirst_host : (doFirst acts s).host = acts ++ s.host := rfl
@[simp] theorem doFirst_link : (doFirst acts s).link = s.link := rfl
@[simp] theorem doFirst_hostState : (doFirst acts s).hostState = s.hostState := rfl
@[simp] theorem doFirst_device : (doFirst acts s).device = s.device := rfl
@[simp] theorem doFirst_stage : (doFirst acts s).stage = s.stage := rfl
@[simp] theorem doFirst_recovery : (doFirst acts s).recovery = s.recovery := rfl
@[simp] theorem doFirst_emitted : (doFirst acts s).emitted = s.emitted := rfl
@[simp] theorem doFirst_draws : (doFirst acts s).draws = s.draws := rfl
@[simp] theorem doFirst_epoch : (doFirst acts s).epoch = s.epoch := rfl

end

/-! ### `closeSession` (R153) -/

section

variable (b : Bool) (s : State)

@[simp] theorem closeSession_ob : (closeSession b s).ob = s.ob := rfl
@[simp] theorem closeSession_ib : (closeSession b s).ib = s.ib := rfl
@[simp] theorem closeSession_tx : (closeSession b s).tx = s.tx := rfl
@[simp] theorem closeSession_len : (closeSession b s).len = s.len := rfl
@[simp] theorem closeSession_ilen : (closeSession b s).ilen = s.ilen := rfl
@[simp] theorem closeSession_css : (closeSession b s).css = s.css := rfl
@[simp] theorem closeSession_phase : (closeSession b s).phase = s.phase := rfl
@[simp] theorem closeSession_done : (closeSession b s).done = s.done := rfl
@[simp] theorem closeSession_err : (closeSession b s).err = s.err := rfl
@[simp] theorem closeSession_ibvalid : (closeSession b s).ibvalid = s.ibvalid := rfl
@[simp] theorem closeSession_ecode : (closeSession b s).ecode = s.ecode := rfl
@[simp] theorem closeSession_fph : (closeSession b s).fph = s.fph := rfl
@[simp] theorem closeSession_lerr : (closeSession b s).lerr = s.lerr := rfl
@[simp] theorem closeSession_csen : (closeSession b s).csen = s.csen := rfl
@[simp] theorem closeSession_k : (closeSession b s).k = s.k := rfl
@[simp] theorem closeSession_t : (closeSession b s).t = s.t := rfl
@[simp] theorem closeSession_waiting : (closeSession b s).waiting = s.waiting := rfl
@[simp] theorem closeSession_revIn : (closeSession b s).revIn = s.revIn := rfl
@[simp] theorem closeSession_rdata : (closeSession b s).rdata = s.rdata := rfl
@[simp] theorem closeSession_line : (closeSession b s).line = s.line := rfl
@[simp] theorem closeSession_linkLog : (closeSession b s).linkLog = s.linkLog := rfl
@[simp] theorem closeSession_host : (closeSession b s).host = [] := rfl
@[simp] theorem closeSession_link : (closeSession b s).link = s.link := rfl
@[simp] theorem closeSession_hostState : (closeSession b s).hostState = .closed b := rfl
@[simp] theorem closeSession_device : (closeSession b s).device = .notOpen := rfl
@[simp] theorem closeSession_stage : (closeSession b s).stage = .fresh := rfl
@[simp] theorem closeSession_recovery : (closeSession b s).recovery = s.recovery := rfl
@[simp] theorem closeSession_emitted : (closeSession b s).emitted = s.emitted := rfl
@[simp] theorem closeSession_draws : (closeSession b s).draws = s.draws := rfl
@[simp] theorem closeSession_epoch : (closeSession b s).epoch = s.epoch := rfl

end

/-! ### `failSession` (R154, R182) -/

section

variable (s : State)

@[simp] theorem failSession_ob : (failSession s).ob = s.ob := rfl
@[simp] theorem failSession_ib : (failSession s).ib = s.ib := rfl
@[simp] theorem failSession_tx : (failSession s).tx = s.tx := rfl
@[simp] theorem failSession_len : (failSession s).len = s.len := rfl
@[simp] theorem failSession_ilen : (failSession s).ilen = s.ilen := rfl
@[simp] theorem failSession_css : (failSession s).css = s.css := rfl
@[simp] theorem failSession_phase : (failSession s).phase = s.phase := rfl
@[simp] theorem failSession_done : (failSession s).done = s.done := rfl
@[simp] theorem failSession_err : (failSession s).err = s.err := rfl
@[simp] theorem failSession_ibvalid : (failSession s).ibvalid = s.ibvalid := rfl
@[simp] theorem failSession_ecode : (failSession s).ecode = s.ecode := rfl
@[simp] theorem failSession_fph : (failSession s).fph = s.fph := rfl
@[simp] theorem failSession_lerr : (failSession s).lerr = s.lerr := rfl
@[simp] theorem failSession_csen : (failSession s).csen = s.csen := rfl
@[simp] theorem failSession_k : (failSession s).k = s.k := rfl
@[simp] theorem failSession_t : (failSession s).t = s.t := rfl
@[simp] theorem failSession_waiting : (failSession s).waiting = s.waiting := rfl
@[simp] theorem failSession_revIn : (failSession s).revIn = s.revIn := rfl
@[simp] theorem failSession_rdata : (failSession s).rdata = s.rdata := rfl
@[simp] theorem failSession_line : (failSession s).line = s.line := rfl
@[simp] theorem failSession_linkLog : (failSession s).linkLog = s.linkLog := rfl
@[simp] theorem failSession_host : (failSession s).host = recoveryActions (recoveryDue s) := rfl
@[simp] theorem failSession_link : (failSession s).link = s.link := rfl
@[simp] theorem failSession_hostState : (failSession s).hostState = s.hostState := rfl
@[simp] theorem failSession_device : (failSession s).device = s.device := rfl
@[simp] theorem failSession_stage : (failSession s).stage = .failed := rfl
@[simp] theorem failSession_recovery : (failSession s).recovery = s.recovery := rfl
@[simp] theorem failSession_emitted : (failSession s).emitted = s.emitted := rfl
@[simp] theorem failSession_draws : (failSession s).draws = s.draws := rfl
@[simp] theorem failSession_epoch : (failSession s).epoch = s.epoch := rfl

end

end Sys2Proof.Machine
end

