-- ==== Sys2Proof/Laws/Ops.lean ====
section
/-! SUPPORT. What each shared operation can do, said once: buffer writes and the loop of `REVBUF`, and one
inversion lemma for each operation that answers an outcome. -/

namespace Sys2Proof.Machine

/-! ### Byte writes -/

section
variable (s : State) (sp : Space) (k : Nat) (v : Byte)

@[simp] theorem writeByte_ob : s.writeByte .ob k v = { s with ob := s.ob.write k v } := rfl
@[simp] theorem writeByte_ib : s.writeByte .ib k v = { s with ib := s.ib.write k v } := rfl
@[simp] theorem writeByte_tx : s.writeByte .tx k v = { s with tx := s.tx.write k v } := rfl
@[simp] theorem store_ob : s.store .ob = s.ob := rfl
@[simp] theorem store_ib : s.store .ib = s.ib := rfl
@[simp] theorem store_tx : s.store .tx = s.tx := rfl

theorem writeByte_epoch : (s.writeByte sp k v).epoch = s.epoch := by cases sp <;> rfl
theorem writeByte_k : (s.writeByte sp k v).k = s.k := by cases sp <;> rfl

/-- What the storage of any space reads after a byte write. -/
theorem store_writeByte (sp' : Space) (j : Nat) :
    ((s.writeByte sp k v).store sp').read j =
      if sp = sp' ∧ k = j ∧ k < Config.maxLen then some v else (s.store sp').read j := by
  cases sp <;> cases sp' <;> simp [Memory.read_write]

/-- A byte write leaves every other byte as it was. -/
theorem readByte_writeByte_ne (sp' : Space) (j : Nat) (h : k ≠ j) :
    (s.writeByte sp k v).readByte sp' j = s.readByte sp' j := by
  simp [State.readByte, store_writeByte, writeByte_epoch, h]

end

/-! ### The loop of REVBUF (R94) -/

section
variable (dst src : Space)

theorem reverseOne_k (s : State) : (reverseOne dst src s).k = s.k + 1 := rfl

theorem reverseOne_store (s : State) (sp : Space) (j : Nat) :
    ((reverseOne dst src s).store sp).read j =
      if dst = sp ∧ s.k.toNat = j ∧ s.k.toNat < Config.maxLen then
        some (rev8 (s.readByte src s.k.toNat)) else (s.store sp).read j := by
  have h : (reverseOne dst src s).store sp =
      (s.writeByte dst s.k.toNat (rev8 (s.readByte src s.k.toNat))).store sp := by cases sp <;> rfl
  rw [h, store_writeByte]

theorem reverseOne_epoch (s : State) : (reverseOne dst src s).epoch = s.epoch := by
  cases dst <;> rfl

theorem reverseOne_readByte_ne (s : State) (j : Nat) (h : s.k.toNat ≠ j) :
    (reverseOne dst src s).readByte src j = s.readByte src j := by
  simp [State.readByte, reverseOne_store, reverseOne_epoch, h]

/-- The turns of the loop written back into the state they start from: only the destination and `K`
change. -/
theorem reverseLoop_tx (n : Nat) (s : State) :
    reverseLoop .tx src n s =
      { s with tx := (reverseLoop .tx src n s).tx, k := (reverseLoop .tx src n s).k } := by
  induction n generalizing s with
  | zero => rfl
  | succ n ih => rw [reverseLoop, ih]; rfl

theorem reverseLoop_ib (n : Nat) (s : State) :
    reverseLoop .ib src n s =
      { s with ib := (reverseLoop .ib src n s).ib, k := (reverseLoop .ib src n s).k } := by
  induction n generalizing s with
  | zero => rfl
  | succ n ih => rw [reverseLoop, ih]; rfl

/-- What the buffers hold after `n` turns: the elements from `K` on are reversed, in place or not. -/
theorem reverseLoop_store (n : Nat) (s : State) (h : s.k.toNat + n ≤ Config.maxLen) (sp : Space)
    (j : Nat) :
    ((reverseLoop dst src n s).store sp).read j =
      if dst = sp ∧ s.k.toNat ≤ j ∧ j < s.k.toNat + n then some (rev8 (s.readByte src j))
      else (s.store sp).read j := by
  induction n generalizing s with
  | zero => simp [reverseLoop, show ¬(s.k.toNat ≤ j ∧ j < s.k.toNat) by omega]
  | succ n ih =>
    have hlt : s.k.toNat < Config.maxLen := by omega
    have hk : (reverseOne dst src s).k.toNat = s.k.toNat + 1 := by
      have : Config.maxLen = 8191 := rfl
      rw [reverseOne_k, BitVec.toNat_add]; simp; omega
    rw [reverseLoop, ih _ (by rw [hk]; omega), hk, reverseOne_store]
    by_cases hd : dst = sp
    · subst hd
      rcases Nat.lt_trichotomy j s.k.toNat with hj | hj | hj
      · simp [show ¬(s.k.toNat + 1 ≤ j) by omega, show ¬(s.k.toNat ≤ j) by omega,
          show s.k.toNat ≠ j by omega]
      · subst hj; simp [hlt]
      · simp [show s.k.toNat + 1 ≤ j by omega, show s.k.toNat ≤ j by omega,
          show s.k.toNat ≠ j by omega, reverseOne_readByte_ne dst src s j (by omega),
          show j < s.k.toNat + 1 + n ↔ j < s.k.toNat + (n + 1) by omega]
    · simp [hd]

/-- The memories keep their canonical form through the loop. -/
theorem reverseLoop_wf (n : Nat) (s : State) (sp : Space) (h : (s.store sp).wf = true) :
    ((reverseLoop dst src n s).store sp).wf = true := by
  induction n generalizing s with
  | zero => exact h
  | succ n ih =>
    refine ih _ ?_
    cases dst <;> cases sp <;> first | exact h | exact Memory.wf_write _ _ _ h

/-- What the buffers hold after `REVBUF dst, src, n` (R94). -/
theorem reverseBuffer_store (n : Nat) (s : State) (h : n ≤ Config.maxLen) (sp : Space) (j : Nat) :
    ((reverseBuffer dst src n s).store sp).read j =
      if dst = sp ∧ j < n then some (rev8 (s.readByte src j)) else (s.store sp).read j := by
  have e : ∀ sp', ({ s with k := 0 } : State).store sp' = s.store sp' := by intro sp'; cases sp' <;> rfl
  rw [reverseBuffer, reverseLoop_store _ _ _ _ (by simpa using h), State.readByte, State.readByte, e,
    e]
  simp

theorem reverseBuffer_wf (n : Nat) (s : State) (sp : Space) (h : (s.store sp).wf = true) :
    ((reverseBuffer dst src n s).store sp).wf = true :=
  reverseLoop_wf _ _ _ _ _ (by cases sp <;> exact h)

theorem reverseBuffer_tx (n : Nat) (s : State) :
    reverseBuffer .tx src n s =
      { s with tx := (reverseBuffer .tx src n s).tx, k := (reverseBuffer .tx src n s).k } :=
  reverseLoop_tx src n { s with k := 0 }

theorem reverseBuffer_ib (n : Nat) (s : State) :
    reverseBuffer .ib src n s =
      { s with ib := (reverseBuffer .ib src n s).ib, k := (reverseBuffer .ib src n s).k } :=
  reverseLoop_ib src n { s with k := 0 }

end

/-- `LEN` never exceeds `MAXLEN` (R13). -/
theorem len_le (l : Length) : l.toNat ≤ Config.maxLen := by
  have h := l.isLt
  have : Config.maxLen = 8191 := rfl
  omega

/-- R118: phase `REVOUT` writes `TX`, `K` and `PHASE` and nothing else. -/
theorem revOutPhase_eq (s : State) :
    revOutPhase s = { s with
      tx := (revOutPhase s).tx, k := (revOutPhase s).k, phase := .exchange } := by
  unfold revOutPhase
  rw [reverseBuffer_tx]

theorem revOutPhase_tx (s : State) (j : Nat) :
    (revOutPhase s).tx.read j =
      if j < s.len.toNat then some (rev8 (s.readByte .ob j)) else s.tx.read j := by
  have h := reverseBuffer_store .tx .ob s.len.toNat s (len_le _) .tx j
  simp only [true_and] at h
  exact h

theorem revOutPhase_tx_wf (s : State) (h : s.tx.wf = true) : (revOutPhase s).tx.wf = true :=
  reverseBuffer_wf .tx .ob s.len.toNat s .tx h

/-- R122: phase `REVIN` writes `IB`, `K`, `ILEN`, `IBVALID`, `DONE` and `PHASE` and nothing else. -/
theorem revInPhase_eq (s : State) :
    revInPhase s = { s with
      ib := (revInPhase s).ib, k := (revInPhase s).k, ilen := s.len, ibvalid := true, done := true,
      phase := .idle } := by
  unfold revInPhase complete
  rw [reverseBuffer_ib]

theorem revInPhase_ib (s : State) (j : Nat) :
    (revInPhase s).ib.read j =
      if j < s.len.toNat then some (rev8 (s.readByte .rx j)) else s.ib.read j := by
  have h := reverseBuffer_store .ib .rx s.len.toNat s (len_le _) .ib j
  simp only [true_and] at h
  exact h

theorem revInPhase_ib_wf (s : State) (h : s.ib.wf = true) : (revInPhase s).ib.wf = true :=
  reverseBuffer_wf .ib .rx s.len.toNat s .ib h

/-! ### The byte array for the LINK -/

@[simp] theorem length_txBytes (s : State) : s.txBytes.length = s.len.toNat := by simp [State.txBytes]

theorem getElem?_txBytes (s : State) (k : Nat) (h : k < s.len.toNat) :
    s.txBytes[k]? = some (s.readByte .tx k) := by
  simp [State.txBytes, h]

/-- R14: `BITCNT` = `LEN` × 8. -/
theorem toNat_bitCount (l : Length) : (bitCount l).toNat = l.toNat * 8 := by
  refine (BitVec.toNat_append l 0#3).trans ?_
  simp [Nat.shiftLeft_eq]

/-! ### What each meaning can do -/

theorem execRev8_next {b : Byte} {s t : State} (h : execRev8 b s = .next t) :
    t = { s with revIn := b } := by
  simpa [execRev8] using h.symm

theorem execSetcs_next {en : Bool} {s t : State} (h : execSetcs en s = .next t) :
    s.phase = .idle ∧ t = beginSetcs en s := by
  unfold execSetcs at h
  split at h
  · exact ⟨‹_›, by simpa using h.symm⟩
  · cases h

theorem execTransact_next {n : Nat} {s t : State} (h : execTransact n s = .next t) :
    s.phase = .idle ∧ ((n ≤ Config.maxLen ∧ t = beginTransact n s) ∨
      (Config.maxLen < n ∧ t = raiseOwn true .eLen (clearResponse s))) := by
  unfold execTransact at h
  split at h
  · split at h
    · exact ⟨‹_›, .inl ⟨‹_›, by simpa using h.symm⟩⟩
    · exact ⟨‹_›, .inr ⟨by omega, by simpa using h.symm⟩⟩
  · cases h

/-- Everything a control-line request can do (R102, R103, R134). -/
theorem controlRequest_next {v : ControlVerb} {s t : State} (h : controlRequest v s = .next t) :
    s.request = some v.instr ∧
      ((nextAnswer s.link = none ∧ t = awaitLink s) ∨
       (∃ d rest, nextAnswer s.link = some (.ok d, rest) ∧
          t = controlOk v (answered (controlEvent v (.ok [])) rest s)) ∨
       (∃ e rest, nextAnswer s.link = some (.fail e, rest) ∧
          t = controlFail e (answered (controlEvent v (.fail e)) rest s))) := by
  unfold controlRequest at h
  split at h
  · refine ⟨‹_›, ?_⟩
    split at h
    · exact .inl ⟨‹_›, by simpa using h.symm⟩
    · exact .inr (.inl ⟨_, _, ‹_›, by simpa using h.symm⟩)
    · exact .inr (.inr ⟨_, _, ‹_›, by simpa using h.symm⟩)
  · cases h

/-- Everything an exchange can do (R119, R120, R133, R134). -/
theorem execXchg_next {bc : BitCount} {s t : State} (h : execXchg bc s = .next t) :
    s.request = some (.xchg bc) ∧
      ((nextAnswer s.link = none ∧ t = awaitLink s) ∨
       (∃ rx rest, nextAnswer s.link = some (.ok rx, rest) ∧ rx.length = s.len.toNat ∧
          t = exchangeOk rx (answered (.xchg s.txBytes bc (.ok rx)) rest s)) ∨
       (∃ e rest, ((∃ rx, nextAnswer s.link = some (.ok rx, rest) ∧ rx.length ≠ s.len.toNat ∧
            e = Config.freeLerr s.draws) ∨ nextAnswer s.link = some (.fail e, rest)) ∧
          t = exchangeFail e (answered (.xchg s.txBytes bc (.fail e)) rest s))) := by
  unfold execXchg at h
  split at h
  · refine ⟨‹_›, ?_⟩
    split at h
    · exact .inl ⟨‹_›, by simpa using h.symm⟩
    · split at h
      · exact .inr (.inl ⟨_, _, ‹_›, ‹_›, by simpa using h.symm⟩)
      · exact .inr (.inr ⟨_, _, .inl ⟨_, ‹_›, ‹_›, rfl⟩, by simpa using h.symm⟩)
    · exact .inr (.inr ⟨_, _, .inr ‹_›, by simpa using h.symm⟩)
  · cases h

/-! ### Which phase issues which request (R125) -/

theorem request_control (s : State) (v : ControlVerb) (h : s.request = some v.instr) :
    (v = .clear ∧ s.phase = .assert) ∨ (v = .set ∧ s.phase = .deassert) ∨
      (s.phase = .csOnly ∧ controlVerb s.csen = v) := by
  unfold State.request at h
  cases hp : s.phase <;> rw [hp] at h <;> cases v <;> simp_all [ControlVerb.instr] <;>
    (cases hc : s.csen <;> simp_all [controlVerb])

theorem request_xchg (s : State) (bc : BitCount) (h : s.request = some (.xchg bc)) :
    s.phase = .exchange ∧ bc = s.bitcnt := by
  unfold State.request at h
  cases hp : s.phase <;> rw [hp] at h <;> simp_all [ControlVerb.instr, controlVerb]
  split at h <;> simp_all

end Sys2Proof.Machine
end

