-- ==== Sys2Proof/Laws/PerInstr.lean ====
section
/-! SUPPORT. The statements made per instruction: the family `RoundTrip` (decode of encode), one lemma per
constructor of `Instr`. -/

namespace Sys2Proof.Laws

/-- The encoding of a well-formed instruction decodes to it. -/
def RoundTrip.Statement (i : Instr) : Prop := WellFormed i = true → decode (encode i) = .ok i

theorem RoundTrip.rev8 (b : Byte) : RoundTrip.Statement (.rev8 b) := fun _ => rfl

theorem RoundTrip.setcs (en : Bool) : RoundTrip.Statement (.setcs en) := by
  intro _; cases en <;> rfl

theorem extract_op (l : BitVec 13) : BitVec.extractLsb' 13 3 (2#3 ++ l : BitVec 16) = 2#3 := by
  apply BitVec.eq_of_toNat_eq
  have h := l.isLt
  rw [BitVec.extractLsb'_toNat, show (2#3 ++ l : BitVec 16).toNat = _ from BitVec.toNat_append 2#3 l,
    ← Nat.shiftLeft_add_eq_or_of_lt h, Nat.shiftLeft_eq, Nat.shiftRight_eq_div_pow]
  simp; omega

theorem extract_arg (l : BitVec 13) : BitVec.extractLsb' 0 13 (2#3 ++ l : BitVec 16) = l := by
  apply BitVec.eq_of_toNat_eq
  have h := l.isLt
  rw [BitVec.extractLsb'_toNat, show (2#3 ++ l : BitVec 16).toNat = _ from BitVec.toNat_append 2#3 l,
    ← Nat.shiftLeft_add_eq_or_of_lt h, Nat.shiftLeft_eq, Nat.shiftRight_eq_div_pow]
  simp; omega

theorem extract_kind (bc : BitVec 16) : BitVec.extractLsb' 16 2 (2#2 ++ bc : BitVec 18) = 2#2 := by
  apply BitVec.eq_of_toNat_eq
  have h := bc.isLt
  rw [BitVec.extractLsb'_toNat, show (2#2 ++ bc : BitVec 18).toNat = _ from BitVec.toNat_append 2#2 bc,
    ← Nat.shiftLeft_add_eq_or_of_lt h, Nat.shiftLeft_eq, Nat.shiftRight_eq_div_pow]
  simp; omega

theorem extract_bc (bc : BitVec 16) : BitVec.extractLsb' 0 16 (2#2 ++ bc : BitVec 18) = bc := by
  apply BitVec.eq_of_toNat_eq
  have h := bc.isLt
  rw [BitVec.extractLsb'_toNat, show (2#2 ++ bc : BitVec 18).toNat = _ from BitVec.toNat_append 2#2 bc,
    ← Nat.shiftLeft_add_eq_or_of_lt h, Nat.shiftLeft_eq, Nat.shiftRight_eq_div_pow]
  simp; omega

theorem RoundTrip.transact (n : Nat) : RoundTrip.Statement (.transact n) := by
  intro h
  have hn : n ≤ 8191 := of_decide_eq_true h
  simp only [encode, decode, decodeCommand, encodeTransact, extract_op, extract_arg]
  simp; omega

theorem RoundTrip.ctlclr : RoundTrip.Statement .ctlclr := fun _ => rfl

theorem RoundTrip.ctlset : RoundTrip.Statement .ctlset := fun _ => rfl

theorem RoundTrip.xchg (bc : BitCount) : RoundTrip.Statement (.xchg bc) := by
  intro h
  simp only [WellFormed] at h
  simp only [encode, decode, decodeRequest, encodeXchg, extract_kind, extract_bc]
  simp [h]

end Sys2Proof.Laws
end

