-- ==== Sys2Proof/Laws/Step.lean ====
section
/-! SUPPORT. What a step can do, said once: the request on the link port always decodes to the operation
that the phase issues, and every step is one of the cases of `stepWith_cases`. -/

namespace Sys2Proof.Machine

/-- R14, R47: the bit count of an exchange is a multiple of 8. -/
theorem bitCountWhole_bitCount (l : Length) : bitCountWhole (bitCount l) = true := by
  have h : (bitCount l &&& 7#16) = 0#16 := by
    apply BitVec.eq_of_toNat_eq
    rw [BitVec.toNat_and, toNat_bitCount, show (7#16).toNat = 2 ^ 3 - 1 from rfl,
      Nat.and_two_pow_sub_one_eq_mod]
    simp
  simp [bitCountWhole, h]

/-- R77: every request of the core decodes to the operation that its phase issues. -/
theorem decode_requestWord (s : State) (i : Instr) (h : s.request = some i) :
    ∃ r, s.requestWord = some r ∧ decode (.l r) = .ok i := by
  unfold State.requestWord
  rw [h]
  have hx : decode (.l (encodeXchg s.bitcnt)) = .ok (.xchg s.bitcnt) :=
    Laws.RoundTrip.xchg s.bitcnt (bitCountWhole_bitCount s.len)
  unfold State.request at h
  split at h
  · cases h; exact ⟨_, rfl, rfl⟩
  · cases h; exact ⟨_, rfl, hx⟩
  · cases h; exact ⟨_, rfl, rfl⟩
  · cases hc : s.csen <;> rw [hc] at h <;> cases h <;> exact ⟨_, rfl, rfl⟩
  all_goals cases h

theorem requestWord_none (s : State) (h : s.request = none) : s.requestWord = none := by
  simp [State.requestWord, h]

/-- What the CORE and the LINK do in a step of theirs: the operation the phase issues, or the phase's own
work. -/
theorem coreFetch_eq (s : State) :
    coreFetch s = match s.request with
      | none => .other (.next (ownPhase s))
      | some i => .run i s := by
  unfold coreFetch
  cases h : s.request with
  | none => simp [requestWord_none s h]
  | some i =>
    obtain ⟨r, hr, hd⟩ := decode_requestWord s i h
    simp [hr, hd]

/-- The step of the CORE and the LINK. -/
def coreStep (s : State) : Host.Outcome State Fault Refusal :=
  match s.request with
  | none => .next (ownPhase s)
  | some i => exec i s

/-- The step that `fetch` gives, run. -/
def Fetched.outcome : Fetched → Host.Outcome State Fault Refusal
  | .run i t => exec i t
  | .other o => o

/-- R5: the machine steps under its one configuration. -/
theorem step_eq (s : State) : step s = stepWith Config.parameters s := rfl

theorem stepWith_eq_outcome (cfg : Parameters) (s : State) :
    stepWith cfg s = (fetch cfg s).outcome := by
  unfold stepWith Fetched.outcome; cases fetch cfg s <;> rfl

theorem outcome_coreFetch (s : State) : (coreFetch s).outcome = coreStep s := by
  rw [coreFetch_eq, coreStep]; cases s.request <;> rfl

/-- A step in which the HOST has nothing to do or must wait is the CORE's. -/
theorem stepWith_of_waits (cfg : Parameters) (s : State)
    (h : ∀ a rest, s.host = a :: rest → hostMay a s.phase = false) :
    stepWith cfg s = coreStep s := by
  rw [stepWith_eq_outcome, fetch]
  cases hh : s.host with
  | nil => exact outcome_coreFetch s
  | cons a rest => simp [h a rest hh, outcome_coreFetch]

/-- A step in which the HOST acts. -/
theorem stepWith_of_acts (cfg : Parameters) (s : State) (a : HostAction) (rest : List HostAction)
    (hh : s.host = a :: rest) (h : hostMay a s.phase = true) :
    stepWith cfg s = (hostFetch cfg a { s with host := rest }).outcome := by
  rw [stepWith_eq_outcome, fetch]; simp [hh, h]

/-- Every way in which the CORE and the LINK can go on. -/
inductive CoreCase (s : State) : State → Prop where
  /-- The core is idle and waits for a command. -/
  | idle : s.phase = .idle → CoreCase s s
  /-- Phase `REVOUT` (R118). -/
  | revOut : s.phase = .revOut → CoreCase s (revOutPhase s)
  /-- Phase `REVIN` (R122). -/
  | revIn : s.phase = .revIn → CoreCase s (revInPhase s)
  /-- The request is issued and the LINK does not answer in this step (R134). -/
  | wait : s.request.isSome = true → nextAnswer s.link = none → CoreCase s (awaitLink s)
  /-- A control-line request is answered `ok`. -/
  | controlOk (v : ControlVerb) (d : List Byte) (rest : List LinkInput) :
      s.request = some v.instr → nextAnswer s.link = some (.ok d, rest) →
      CoreCase s (controlOk v (answered (controlEvent v (.ok [])) rest s))
  /-- A control-line request is answered `fail(e)`. -/
  | controlFail (v : ControlVerb) (e : LinkError) (rest : List LinkInput) :
      s.request = some v.instr → nextAnswer s.link = some (.fail e, rest) →
      CoreCase s (controlFail e (answered (controlEvent v (.fail e)) rest s))
  /-- The exchange is answered with an array of the right length. -/
  | exchangeOk (rx : List Byte) (rest : List LinkInput) :
      s.phase = .exchange → nextAnswer s.link = some (.ok rx, rest) → rx.length = s.len.toNat →
      CoreCase s (exchangeOk rx (answered (.xchg s.txBytes s.bitcnt (.ok rx)) rest s))
  /-- The exchange fails, by the LINK's word or by the length of its answer (R133). -/
  | exchangeFail (e : LinkError) (rest : List LinkInput) :
      s.phase = .exchange →
      (nextAnswer s.link = some (.fail e, rest) ∨
        ∃ rx, nextAnswer s.link = some (.ok rx, rest) ∧ rx.length ≠ s.len.toNat ∧
          e = Config.freeLerr s.draws) →
      CoreCase s (exchangeFail e (answered (.xchg s.txBytes s.bitcnt (.fail e)) rest s))

theorem coreStep_next {s t : State} (h : coreStep s = .next t) : CoreCase s t := by
  unfold coreStep at h
  cases hr : s.request with
  | none =>
    rw [hr] at h
    unfold State.request at hr
    simp only [Host.Outcome.next.injEq] at h
    cases hp : s.phase <;> rw [hp] at hr <;> simp at hr <;> simp only [ownPhase, hp] at h <;> subst h
    · exact .idle hp
    · exact .revOut hp
    · exact .revIn hp
  | some i =>
    rw [hr] at h
    simp only [] at h
    have hctl : ∀ v : ControlVerb, i = v.instr → controlRequest v s = .next t → CoreCase s t := by
      intro v hi hc
      obtain ⟨hreq, ⟨hn, rfl⟩ | ⟨d, rest, hn, rfl⟩ | ⟨e, rest, hn, rfl⟩⟩ := controlRequest_next hc
      · exact .wait (by simp [hr]) hn
      · exact .controlOk v d rest hreq hn
      · exact .controlFail v e rest hreq hn
    have hother : i ≠ .ctlclr → i ≠ .ctlset → (∀ bc, i ≠ .xchg bc) → False := by
      intro h1 h2 h3
      unfold State.request at hr
      cases hp : s.phase <;> rw [hp] at hr <;> simp at hr
      · exact h1 hr.symm
      · exact h3 _ hr.symm
      · exact h2 hr.symm
      · cases hc : s.csen <;> rw [hc] at hr
        · exact h2 hr.symm
        · exact h1 hr.symm
    cases i with
    | rev8 b => exact (hother (by simp) (by simp) (by simp)).elim
    | setcs en => exact (hother (by simp) (by simp) (by simp)).elim
    | transact n => exact (hother (by simp) (by simp) (by simp)).elim
    | ctlclr => exact hctl .clear rfl h
    | ctlset => exact hctl .set rfl h
    | xchg bc =>
      obtain ⟨hreq, hcase⟩ := execXchg_next (show execXchg bc s = .next t from h)
      obtain ⟨hp, rfl⟩ := request_xchg s bc hreq
      obtain ⟨hn, rfl⟩ | ⟨rx, rest, hn, hl, rfl⟩ | ⟨e, rest, hn, rfl⟩ := hcase
      · exact .wait (by simp [hr]) hn
      · exact .exchangeOk rx rest hp hn hl
      · exact .exchangeFail e rest hp hn.symm

/-- The actions of the session sequences (spec/43_session_sequences.md). -/
def ofSession (a : HostAction) : Bool :=
  match a with
  | .session _ | .boot | .ready | .start _ | .check | .emit | .close _ => true
  | .obWrite _ _ | .obRead _ | .ibRead _ | .readStatus | .codec _ | .command _ | .reset | .yield => false

/-- Every way in which an action of the HOST, already taken off its list, can go on. -/
inductive HostCase (cfg : Parameters) (s : State) : HostAction → State → Prop where
  | obWrite (addr : Length) (data : Byte) : HostCase cfg s (.obWrite addr data) (hostObWrite addr data s)
  | obRead (addr : Length) : HostCase cfg s (.obRead addr) (hostObRead addr s)
  | ibRead (addr : Length) (b : Byte) : s.response addr.toNat = some b →
      HostCase cfg s (.ibRead addr) { s with rdata := b }
  | ibReadNothing (addr : Length) : HostCase cfg s (.ibRead addr) (hostReadNothing s)
  | readStatus : HostCase cfg s .readStatus s
  | codec (b : Byte) : HostCase cfg s (.codec b) { s with revIn := b }
  | illegal (w : CommandWord) (e : DecodeError) : decode (.c w) = .error e →
      HostCase cfg s (.command w) (illegalCommand (noteCommand w s))
  | setcs (w : CommandWord) (en : Bool) : decode (.c w) = .ok (.setcs en) → s.phase = .idle →
      HostCase cfg s (.command w) (beginSetcs en (noteCommand w s))
  | transact (w : CommandWord) (n : Nat) : decode (.c w) = .ok (.transact n) → s.phase = .idle →
      n ≤ Config.maxLen → HostCase cfg s (.command w) (beginTransact n (noteCommand w s))
  | reset : HostCase cfg s .reset (coreReset (noteReset s))
  | yield (t : State) : CoreCase s t → HostCase cfg s .yield t
  /-- A session action: only the HOST's own fields change; Laws/Session.lean says how. -/
  | session (a : HostAction) (t : State) :
      ofSession a = true → (hostFetch cfg a s).outcome = .next t →
      t = { s with
        host := t.host, hostState := t.hostState, device := t.device, stage := t.stage,
        emitted := t.emitted } →
      HostCase cfg s a t

theorem decodeCommand_ok {w : CommandWord} {i : Instr} (h : decode (.c w) = .ok i) :
    (∃ en, i = .setcs en) ∨ (∃ n, i = .transact n ∧ n ≤ Config.maxLen) := by
  simp only [decode, decodeCommand] at h
  split at h
  · split at h
    · exact .inl ⟨_, by simpa using h.symm⟩
    · cases h
  · split at h
    · exact .inr ⟨(w.extractLsb' 0 13).toNat, by cases h; rfl, len_le _⟩
    · cases h

theorem hostFetch_next {cfg : Parameters} {a : HostAction} {s t : State}
    (h : (hostFetch cfg a s).outcome = .next t) : HostCase cfg s a t := by
  have h' := h
  cases a with
  | obWrite addr data => cases h; exact .obWrite addr data
  | obRead addr => cases h; exact .obRead addr
  | ibRead addr =>
    simp only [hostFetch, Fetched.outcome, hostIbRead] at h
    split at h
    · split at h
      · cases h; exact .ibRead addr _ ‹_›
      · cases h
    · cases h; exact .ibReadNothing addr
  | readStatus => cases h; exact .readStatus
  | codec b => cases h; exact .codec b
  | command w =>
    simp only [hostFetch, commandFetch] at h
    cases hd : decode (.c w) with
    | error e => rw [hd] at h; cases h; exact .illegal w e hd
    | ok i =>
      rw [hd] at h
      obtain ⟨en, rfl⟩ | ⟨n, rfl, hn⟩ := decodeCommand_ok hd
      · obtain ⟨hp, rfl⟩ := execSetcs_next (show execSetcs en (noteCommand w s) = .next t from h)
        exact .setcs w en hd hp
      · obtain ⟨hp, ⟨_, rfl⟩ | ⟨hlt, _⟩⟩ := execTransact_next (show execTransact n (noteCommand w s) = .next t from h)
        · exact .transact w n hd hp hn
        · omega
  | reset => cases h; exact .reset
  | yield => exact .yield t (coreStep_next (by rw [← outcome_coreFetch]; exact h))
  | session input =>
    simp only [hostFetch, Fetched.outcome, hostSession, startUp, endFailed] at h
    split at h
    · split at h
      · cases h; exact .session _ _ rfl h' rfl
      · split at h <;> cases h <;> exact .session _ _ rfl h' rfl
    · cases h
  | boot =>
    simp only [hostFetch, Fetched.outcome, hostBoot, startUp, endFailed] at h
    split at h
    · split at h
      · cases h; exact .session _ _ rfl h' rfl
      · split at h <;> cases h <;> exact .session _ _ rfl h' rfl
    · cases h
  | ready =>
    simp only [hostFetch, Fetched.outcome, hostReady] at h
    split at h <;> cases h
    exact .session _ _ rfl h' rfl
  | start input =>
    simp only [hostFetch, Fetched.outcome, hostStart] at h
    split at h
    · split at h
      · split at h <;> cases h <;> exact .session _ _ rfl h' rfl
      · cases h
    · split at h
      · split at h <;> cases h <;> exact .session _ _ rfl h' rfl
      · cases h
    · split at h
      · split at h
        · cases h; exact .session _ _ rfl h' rfl
        · split at h <;> cases h <;> exact .session _ _ rfl h' rfl
      · cases h
  | check =>
    simp only [hostFetch, Fetched.outcome, hostCheck] at h
    split at h
    · cases h; exact .session _ _ rfl h' rfl
    · split at h <;> cases h
      · exact .session _ _ rfl h' rfl
      · exact .session _ _ rfl h' rfl
  | emit =>
    simp only [hostFetch, Fetched.outcome, hostEmit] at h
    split at h
    · cases h; exact .session _ _ rfl h' rfl
    · split at h
      · split at h
        · split at h <;> cases h
          exact .session _ _ rfl h' rfl
        · cases h
      · cases h
  | close success =>
    simp only [hostFetch, Fetched.outcome, hostClose] at h
    split at h
    · split at h <;> cases h <;> exact .session _ _ rfl h' rfl
    · cases h

/-- Everything a step can do: the HOST's action, or the step of the CORE and the LINK. -/
theorem stepWith_cases {cfg : Parameters} {s t : State} (h : stepWith cfg s = .next t) :
    (∃ a rest, s.host = a :: rest ∧ hostMay a s.phase = true ∧
      HostCase cfg { s with host := rest } a t) ∨
    ((∀ a rest, s.host = a :: rest → hostMay a s.phase = false) ∧ CoreCase s t) := by
  cases hh : s.host with
  | nil =>
    have hw : ∀ a rest, s.host = a :: rest → hostMay a s.phase = false := by simp [hh]
    exact .inr ⟨by simp, coreStep_next (by rw [← stepWith_of_waits cfg s hw]; exact h)⟩
  | cons a rest =>
    cases hm : hostMay a s.phase with
    | true =>
      exact .inl ⟨a, rest, rfl, hm,
        hostFetch_next (by rw [← stepWith_of_acts cfg s a rest hh hm]; exact h)⟩
    | false =>
      have hw : ∀ a' rest', s.host = a' :: rest' → hostMay a' s.phase = false := by
        intro a' rest' h'; rw [hh] at h'; cases h'; exact hm
      refine .inr ⟨?_, coreStep_next (by rw [← stepWith_of_waits cfg s hw]; exact h)⟩
      intro a' rest' h'; cases h'; exact hm

end Sys2Proof.Machine
end

