-- ==== Sys2Proof/Laws/Run.lean ====
section
/-! SUPPORT. Runs of several steps: one step taken off a run, which agent takes it, and what each step of an
operation does. -/

namespace Sys2Proof.Machine

/-- R5: the host's machine is the one under the configuration of the session. -/
theorem coreWith_parameters : coreWith Config.parameters = Sys2Proof.core := rfl

theorem runSteps_zero (cfg : Parameters) (s : State) : runSteps cfg 0 s = .next s := rfl

/-- A run whose first step is known. -/
theorem runSteps_succ (cfg : Parameters) (n : Nat) (s t : State) (h : stepWith cfg s = .next t) :
    runSteps cfg (n + 1) s = runSteps cfg n t := by
  have h' : (coreWith cfg).step s = .next t := h
  simp only [runSteps, Host.Core.run, h']
  rfl

/-- A trace whose first step is known. -/
theorem phaseTrace_succ (cfg : Parameters) (n : Nat) (s t : State) (h : stepWith cfg s = .next t) :
    phaseTrace cfg (n + 1) s = s.phase :: phaseTrace cfg n t := by
  simp [phaseTrace, h]

/-- What the HOST may do is the same in every phase but `IDLE`. -/
theorem hostMay_busy (a : HostAction) (p : Phase) (hp : p ≠ .idle) :
    hostMay a p = hostMay a .assert := by
  cases a <;> cases p <;> first | rfl | exact absurd rfl hp

/-- While the core is busy a blocking HOST waits. -/
theorem stepWith_of_blocking (cfg : Parameters) (s : State) (hp : s.phase ≠ .idle)
    (hb : blocking s.host = true) : stepWith cfg s = coreStep s := by
  refine stepWith_of_waits cfg s fun a rest h => ?_
  rw [hostMay_busy a _ hp]
  simpa [blocking, h] using hb

theorem stepWith_of_hostWaits (cfg : Parameters) (s : State) (h : hostWaits s = true) :
    stepWith cfg s = coreStep s := by
  refine stepWith_of_waits cfg s fun a rest hh => ?_
  simpa [hostWaits, hh] using h

/-- An idle core with nothing to do stays as it is. -/
theorem runSteps_rest (cfg : Parameters) (n : Nat) (s : State) (hp : s.phase = .idle) (hh : s.host = []) :
    runSteps cfg n s = .next s := by
  induction n with
  | zero => rfl
  | succ n ih =>
    rw [runSteps_succ cfg n s s ?_, ih]
    rw [stepWith_of_hostWaits cfg s (by simp [hostWaits, hh])]
    simp [coreStep, State.request, hp, ownPhase]

/-- A command word that decodes, given to an idle core. -/
theorem stepWith_command (cfg : Parameters) (s : State) (w : CommandWord) (i : Instr)
    (rest : List HostAction) (hp : s.phase = .idle) (hh : s.host = .command w :: rest)
    (hd : decode (.c w) = .ok i) :
    stepWith cfg s = exec i (noteCommand w { s with host := rest }) := by
  rw [stepWith_of_acts cfg s _ rest hh (by simp [hostMay, hp])]
  simp [hostFetch, commandFetch, hd, Fetched.outcome]

theorem exec_verb (v : ControlVerb) (s : State) : exec v.instr s = controlRequest v s := by
  cases v <;> rfl

theorem coreStep_verb (v : ControlVerb) (s : State) (hr : s.request = some v.instr) :
    coreStep s = controlRequest v s := by
  simp [coreStep, hr, exec_verb]

/-- A control-line request answered `ok`. -/
theorem controlRequest_ok (v : ControlVerb) (s : State) (d : List Byte) (rest : List LinkInput)
    (hr : s.request = some v.instr) (hn : nextAnswer s.link = some (.ok d, rest)) :
    controlRequest v s = .next (controlOk v (answered (controlEvent v (.ok [])) rest s)) := by
  simp [controlRequest, hr, hn]

/-- A control-line request answered `fail(e)`. -/
theorem controlRequest_fail (v : ControlVerb) (s : State) (e : LinkError) (rest : List LinkInput)
    (hr : s.request = some v.instr) (hn : nextAnswer s.link = some (.fail e, rest)) :
    controlRequest v s = .next (controlFail e (answered (controlEvent v (.fail e)) rest s)) := by
  simp [controlRequest, hr, hn]

/-- The step of the CORE and the LINK always answers a next state. -/
theorem coreStep_answers (s : State) : ∃ t, coreStep s = .next t := by
  cases hr : s.request with
  | none => exact ⟨ownPhase s, by simp [coreStep, hr]⟩
  | some i =>
    simp only [coreStep, hr]
    have hc : ∀ v : ControlVerb, s.request = some v.instr → ∃ t, controlRequest v s = .next t := by
      intro v h
      unfold controlRequest
      rw [if_pos h]
      split <;> exact ⟨_, rfl⟩
    have hno : i ≠ .ctlclr → i ≠ .ctlset → (∀ bc, i ≠ .xchg bc) → False := by
      intro h1 h2 h3
      unfold State.request at hr
      cases hp : s.phase <;> rw [hp] at hr <;> simp at hr
      · exact h1 hr.symm
      · exact h3 _ hr.symm
      · exact h2 hr.symm
      · cases hc : s.csen <;> rw [hc] at hr
        · exact h2 hr.symm
        · exact h1 hr.symm
    cases i with
    | ctlclr => exact hc .clear hr
    | ctlset => exact hc .set hr
    | xchg bc =>
      show ∃ t, execXchg bc s = .next t
      unfold execXchg
      rw [if_pos hr]
      split
      · exact ⟨_, rfl⟩
      · split <;> exact ⟨_, rfl⟩
      · exact ⟨_, rfl⟩
    | rev8 b => exact (hno (by simp) (by simp) (by simp)).elim
    | setcs en => exact (hno (by simp) (by simp) (by simp)).elim
    | transact n => exact (hno (by simp) (by simp) (by simp)).elim

/-- The CORE and the LINK never touch what the HOST still has to do. -/
theorem CoreCase.host_eq {s t : State} (h : CoreCase s t) : t.host = s.host := by
  cases h with
  | idle => rfl
  | revOut => rw [revOutPhase_eq]
  | revIn => rw [revInPhase_eq]
  | wait => rfl
  | controlOk v d rest hr hn => unfold Machine.controlOk; split <;> rfl
  | controlFail v e rest hr hn => unfold Machine.controlFail; split <;> rfl
  | exchangeOk => rfl
  | exchangeFail => rfl

/-! ### The steps of an operation whose HOST waits for its end -/

/-- R75: the command word of a `TRANSACT` as a sum. -/
theorem encodeTransact_eq (n : Nat) (hn : n ≤ Config.maxLen) :
    encodeTransact n = BitVec.ofNat 16 (0x4000 + n) := by
  have h8 : n < 8192 := by have : Config.maxLen = 8191 := rfl; omega
  apply BitVec.eq_of_toNat_eq
  refine (BitVec.toNat_append 2#3 _).trans ?_
  rw [← Nat.shiftLeft_add_eq_or_of_lt (BitVec.isLt _), Nat.shiftLeft_eq]
  simp; omega

theorem decode_transactWord (n : Nat) (hn : n ≤ Config.maxLen) :
    decode (.c (BitVec.ofNat 16 (0x4000 + n))) = .ok (.transact n) := by
  rw [← encodeTransact_eq n hn]
  exact Laws.RoundTrip.transact n (decide_eq_true hn)

theorem decode_setcsWord (en : Bool) :
    decode (.c (if en then 0x2001#16 else 0x2000#16)) = .ok (.setcs en) := by cases en <;> rfl

/-- The acceptance of a `TRANSACT`. -/
theorem stepWith_startsTransact (cfg : Parameters) (s : State) (n : Nat) (rest : List HostAction)
    (h : StartsTransact s n rest) : stepWith cfg s = .next (beginTransact n
      (noteCommand (BitVec.ofNat 16 (0x4000 + n)) { s with host := rest })) := by
  obtain ⟨hp, hh, hn, _⟩ := h
  rw [stepWith_command cfg s _ (.transact n) rest hp hh (decode_transactWord n hn)]
  simp [exec, execTransact, hp, hn]

/-- The acceptance of a `SETCS`. -/
theorem stepWith_startsSetcs (cfg : Parameters) (s : State) (en : Bool) (rest : List HostAction)
    (h : StartsSetcs s en rest) : stepWith cfg s = .next (beginSetcs en
      (noteCommand (if en then 0x2001#16 else 0x2000#16) { s with host := rest })) := by
  obtain ⟨hp, hh, _⟩ := h
  rw [stepWith_command cfg s _ (.setcs en) rest hp hh (decode_setcsWord en)]
  simp [exec, execSetcs, hp]

section
variable (cfg : Parameters) (s : State) (rest : List LinkInput) (hb : blocking s.host = true)
include hb

theorem stepWith_control_ok (v : ControlVerb) (d : List Byte) (hr : s.request = some v.instr)
    (hn : nextAnswer s.link = some (.ok d, rest)) :
    stepWith cfg s = .next (controlOk v (answered (controlEvent v (.ok [])) rest s)) := by
  rw [stepWith_of_blocking cfg s (by intro h; simp [State.request, h] at hr) hb, coreStep_verb _ _ hr,
    controlRequest_ok _ _ d rest hr hn]

theorem stepWith_control_fail (v : ControlVerb) (e : LinkError) (hr : s.request = some v.instr)
    (hn : nextAnswer s.link = some (.fail e, rest)) :
    stepWith cfg s = .next (controlFail e (answered (controlEvent v (.fail e)) rest s)) := by
  rw [stepWith_of_blocking cfg s (by intro h; simp [State.request, h] at hr) hb, coreStep_verb _ _ hr,
    controlRequest_fail _ _ e rest hr hn]

omit rest in
theorem stepWith_revOut (hp : s.phase = .revOut) : stepWith cfg s = .next (revOutPhase s) := by
  rw [stepWith_of_blocking cfg s (by simp [hp]) hb]
  simp [coreStep, State.request, hp, ownPhase]

omit rest in
theorem stepWith_revIn (hp : s.phase = .revIn) : stepWith cfg s = .next (revInPhase s) := by
  rw [stepWith_of_blocking cfg s (by simp [hp]) hb]
  simp [coreStep, State.request, hp, ownPhase]

theorem stepWith_exchange_ok (rx : List Byte) (hp : s.phase = .exchange)
    (hn : nextAnswer s.link = some (.ok rx, rest)) (hl : rx.length = s.len.toNat) :
    stepWith cfg s = .next (exchangeOk rx (answered (.xchg s.txBytes s.bitcnt (.ok rx)) rest s)) := by
  have hr : s.request = some (.xchg s.bitcnt) := by simp [State.request, hp]
  rw [stepWith_of_blocking cfg s (by simp [hp]) hb, coreStep, hr]
  show execXchg _ _ = _
  simp [execXchg, hr, hn, hl]

theorem stepWith_exchange_fail (e : LinkError) (hp : s.phase = .exchange)
    (hn : nextAnswer s.link = some (.fail e, rest)) :
    stepWith cfg s = .next (exchangeFail e (answered (.xchg s.txBytes s.bitcnt (.fail e)) rest s)) := by
  have hr : s.request = some (.xchg s.bitcnt) := by simp [State.request, hp]
  rw [stepWith_of_blocking cfg s (by simp [hp]) hb, coreStep, hr]
  show execXchg _ _ = _
  simp [execXchg, hr, hn]

end

/-- A run cut in two. -/
theorem runSteps_add (cfg : Parameters) (m n : Nat) (s t : State) (h : runSteps cfg m s = .next t) :
    runSteps cfg (m + n) s = runSteps cfg n t := by
  induction m generalizing s with
  | zero => cases h; rw [Nat.zero_add]
  | succ m ih =>
    rw [Nat.add_right_comm]
    cases hs : stepWith cfg s with
    | next u => rw [runSteps_succ _ _ _ _ hs] at h ⊢; exact ih u h
    | fault f =>
      have hs' : (coreWith cfg).step s = .fault f := hs
      simp [runSteps, Host.Core.run, hs'] at h
    | refused f =>
      have hs' : (coreWith cfg).step s = .refused f := hs
      simp [runSteps, Host.Core.run, hs'] at h

/-- The last control-line event of a history with one more event. -/
theorem lastControl_append (l : List LinkEvent) (e : LinkEvent) :
    lastControl (l ++ [e]) = match e with
      | .xchg _ _ _ => lastControl l
      | .ctlClear r => some (.ctlClear r)
      | .ctlSet r => some (.ctlSet r) := by
  induction l with
  | nil => cases e <;> rfl
  | cons a l ih => cases a <;> cases e <;> simp_all [lastControl]

/-! ### The general REVBUF (R94, R95) -/

theorem length_reversed (s : State) (src : Space) (sOff n : Nat) :
    (s.reversed src sOff n).length = n := by simp [State.reversed]

theorem getElem?_reversed (s : State) (src : Space) (sOff n i : Nat) (h : i < n) :
    (s.reversed src sOff n)[i]? = some (rev8 (s.readByte src (sOff + i))) := by
  simp [State.reversed, h]

/-- What the buffers read after a run of byte writes. -/
theorem store_writeBytes (s : State) (sp sp' : Space) (k : Nat) (vs : List Byte) (j : Nat)
    (h : k + vs.length ≤ Config.maxLen) :
    ((s.writeBytes sp k vs).store sp').read j =
      if sp = sp' ∧ k ≤ j ∧ j < k + vs.length then vs[j - k]? else (s.store sp').read j := by
  induction vs generalizing s k with
  | nil => simp [State.writeBytes]
  | cons v vs ih =>
    simp only [List.length_cons] at h
    rw [State.writeBytes, ih _ _ (by omega), store_writeByte]
    by_cases hd : sp = sp'
    · subst hd
      rcases Nat.lt_trichotomy j k with hj | hj | hj
      · simp [show ¬(k + 1 ≤ j) by omega, show ¬(k ≤ j) by omega, show k ≠ j by omega]
      · subst hj; simp [show j < Config.maxLen by omega]
      · obtain ⟨d, rfl⟩ : ∃ d, j = k + 1 + d := ⟨j - k - 1, by omega⟩
        have e1 : k + 1 + d - k = d + 1 := by omega
        have e2 : k + 1 + d - (k + 1) = d := by omega
        simp only [e1, e2, List.getElem?_cons_succ, List.length_cons,
          show k + 1 ≤ k + 1 + d from by omega, show k ≤ k + 1 + d from by omega,
          show ¬(k = k + 1 + d) from by omega, true_and, false_and, if_false]
        by_cases hc : d < vs.length
        · simp [show k + 1 + d < k + 1 + vs.length by omega,
            show k + 1 + d < k + (vs.length + 1) by omega]
        · simp [show ¬ k + 1 + d < k + 1 + vs.length by omega,
            show ¬ k + 1 + d < k + (vs.length + 1) by omega]
    · simp [hd]

/-- A run of byte writes changes the buffers only. -/
theorem writeBytes_eq (s : State) (sp : Space) (k : Nat) (vs : List Byte) :
    s.writeBytes sp k vs = { s with
      ob := (s.writeBytes sp k vs).ob, ib := (s.writeBytes sp k vs).ib,
      tx := (s.writeBytes sp k vs).tx } := by
  induction vs generalizing s k with
  | nil => rfl
  | cons v vs ih => rw [State.writeBytes, ih]; cases sp <;> rfl

end Sys2Proof.Machine
end

