-- ==== Sys2Proof/Laws/Session.lean ====
section
/-! SUPPORT. What each action of a session can do, said once (spec/43_session_sequences.md): if it answers a
next state, then under which guard and which state. And the steps of the parts of a session. -/

namespace Sys2Proof.Machine

/-! ### What each action can do -/

/-- R182: a fatal condition ends in the recovery or, where none is due, in `Closed`. -/
theorem endFailed_cases (s : State) :
    (recoveryDue s = true ∧ endFailed s = failSession s) ∨
    (recoveryDue s = false ∧ endFailed s = closeSession false s) := by
  unfold endFailed; split <;> simp_all

theorem recoveryDue_of_not_stands {s : State} (h : failureStands s = false) :
    s.err = false ∧ recoveryDue s = false := by simpa [failureStands] using h

/-- The Bool that the HOST tests, and the terms of the statements. -/
theorem failureStands_eq_false_iff (s : State) : failureStands s = false ↔ NoFailure s := by
  cases h : s.recovery <;> cases he : s.err <;> simp [failureStands, recoveryDue, NoFailure, h, he]

theorem NoFailure.not_due {s : State} (h : NoFailure s) : recoveryDue s = false :=
  (recoveryDue_of_not_stands ((failureStands_eq_false_iff s).2 h)).2

/-- After a command issued while no failure stands there is nothing to remember. -/
theorem noteCommand_of_not_due (w : CommandWord) (s : State) (h : recoveryDue s = false) :
    noteCommand w s = { s with recovery := .clear } := by simp [noteCommand, recoveryAfter, h]

/-- The Bool that the HOST tests, and the terms of the statements. -/
theorem configOk_eq_false_iff (cfg : Parameters) : configOk cfg = false ↔ BadConfig cfg := by
  unfold configOk BadConfig blockLengthOk
  cases cfg.mode <;> simp; omega

theorem configOk_iff (cfg : Parameters) : configOk cfg = true ↔ ¬BadConfig cfg := by
  rw [← configOk_eq_false_iff]; simp

/-- R154 (a): a start goes on to `t`, or a configuration error is fatal. -/
theorem startUp_next {cfg : Parameters} {u s t : State} (h : startUp cfg u s = .next t) :
    untouched s = true ∧
    ((¬BadConfig cfg ∧ t = u) ∨ (BadConfig cfg ∧ t = endFailed s)) := by
  unfold startUp at h
  split at h
  · split at h <;> cases h
    · exact ⟨‹_›, .inl ⟨(configOk_iff cfg).1 ‹_›, rfl⟩⟩
    · exact ⟨‹_›, .inr ⟨(configOk_eq_false_iff cfg).1 (by simp_all), rfl⟩⟩
  · cases h

theorem hostReady_next {s t : State} (h : hostReady s = .next t) :
    baselineForced s = true ∧
    t = { s with hostState := .deviceReady, device := .jtagSelected, stage := .fresh } := by
  unfold hostReady at h
  split at h <;> cases h
  exact ⟨‹_›, rfl⟩

/-- R146, R148 to R151, R154: the three ways a sequence goes on, the bad block length, and a failure that
stands. -/
theorem hostStart_next {cfg : Parameters} {input : List Byte} {s t : State}
    (h : hostStart cfg input s = .next t) :
    (mayStart s = true ∨ ∃ l, cfg.mode = .interactive l ∧ mayLoop s = true) ∧
    ((failureStands s = true ∧ t = failSession s) ∨
    (failureStands s = false ∧
      ((∃ b, cfg.mode = .csAction b ∧ mayStart s = true ∧
        t = doFirst (csActionActions b) { s with stage := .acting }) ∨
      (cfg.mode = .oneShot ∧ mayStart s = true ∧
        t = doFirst (oneShotActions input)
          { s with hostState := .oneShotTransfer, stage := oneShotStage input }) ∨
      (∃ l, cfg.mode = .interactive l ∧ mayLoop s = true ∧ blockLengthOk l = true ∧
        t = doFirst (interactiveActions l input)
          { s with hostState := .interactiveLoop, stage := roundStage l input }) ∨
      (∃ l, cfg.mode = .interactive l ∧ mayLoop s = true ∧ blockLengthOk l = false ∧
        t = closeSession false s)))) := by
  unfold hostStart at h
  split at h
  · split at h
    · split at h <;> cases h <;> simp_all
    · cases h
  · split at h
    · split at h <;> cases h <;> simp_all
    · cases h
  · split at h
    · split at h
      · cases h; simp_all
      · split at h <;> cases h <;> simp_all
    · cases h

theorem hostCheck_cases (s : State) :
    (s.err = true ∧ hostCheck s = failSession s) ∨
    (s.err = false ∧ s.done = true ∧ s.stage = .acting ∧
      hostCheck s = { s with stage := .finished }) ∨
    hostCheck s = s := by
  unfold hostCheck
  split
  · exact .inl ⟨‹_›, rfl⟩
  · split
    · simp_all
    · exact .inr (.inr rfl)

theorem hostEmit_next {s t : State} (h : hostEmit s = .next t) :
    (s.err = true ∧ t = failSession s) ∨
    (s.err = false ∧ s.stage = .transferring ∧ s.done = true ∧ s.ibvalid = true ∧
      ∃ bytes, s.responseBytes = some bytes ∧
        t = { s with emitted := s.emitted ++ [bytes], stage := .finished }) := by
  unfold hostEmit at h
  split at h
  · cases h; exact .inl ⟨‹_›, rfl⟩
  · split at h
    · split at h
      · split at h <;> cases h
        refine .inr ⟨by simp_all, by simp_all, by simp_all, by simp_all, _, ‹_›, rfl⟩
      · cases h
    · cases h

theorem hostClose_next {b : Bool} {s t : State} (h : hostClose b s = .next t) :
    mayClose b s = true ∧
    ((closeBlocked b s = true ∧ t = failSession s) ∨
      (closeBlocked b s = false ∧ t = closeSession b s)) := by
  unfold hostClose at h
  split at h
  · split at h <;> cases h
    · exact ⟨‹_›, .inl ⟨‹_›, rfl⟩⟩
    · exact ⟨‹_›, .inr ⟨by simp_all, rfl⟩⟩
  · cases h

/-- R146: `CLOSE` in success comes after a finished sequence only. -/
theorem mayClose_true {s : State} (h : mayClose true s = true) :
    s.stage = .finished ∧ (s.hostState = .deviceReady ∨ s.hostState = .oneShotTransfer ∨
      s.hostState = .interactiveLoop) := by
  unfold mayClose at h
  cases hs : s.hostState <;> simp_all

/-- R182: a `CLOSE` that is not blocked has no recovery due, and in success no failure stands. -/
theorem closeBlocked_false {b : Bool} {s : State} (h : closeBlocked b s = false) :
    recoveryDue s = false ∧ (b = true → s.err = false) := by
  cases b <;> simp_all [closeBlocked, failureStands]

theorem NoFailure.closeBlocked {s : State} (h : NoFailure s) (b : Bool) : closeBlocked b s = false := by
  cases b <;> simp [Machine.closeBlocked, h.not_due, (failureStands_eq_false_iff s).2 h]

/-- R146: nothing leads out of `Closed`. -/
theorem mayClose_not_closed {b : Bool} {s : State} (h : mayClose b s = true) (c : Bool) :
    s.hostState ≠ .closed c := by
  intro hc
  simp [mayClose, hc] at h

/-- The CORE and the LINK never touch the HOST's session. -/
theorem CoreCase.session_eq {s t : State} (h : CoreCase s t) :
    t.hostState = s.hostState ∧ t.device = s.device ∧ t.stage = s.stage ∧ t.emitted = s.emitted := by
  cases h with
  | idle => exact ⟨rfl, rfl, rfl, rfl⟩
  | revOut => rw [revOutPhase_eq]; exact ⟨rfl, rfl, rfl, rfl⟩
  | revIn => rw [revInPhase_eq]; exact ⟨rfl, rfl, rfl, rfl⟩
  | wait => exact ⟨rfl, rfl, rfl, rfl⟩
  | controlOk v d rest hr hn => unfold Machine.controlOk; split <;> exact ⟨rfl, rfl, rfl, rfl⟩
  | controlFail v e rest hr hn => unfold Machine.controlFail; split <;> exact ⟨rfl, rfl, rfl, rfl⟩
  | exchangeOk => exact ⟨rfl, rfl, rfl, rfl⟩
  | exchangeFail => exact ⟨rfl, rfl, rfl, rfl⟩

/-! ### The steps of the parts of a session -/

/-- The HOST's next action, at an idle core. -/
theorem stepWith_host_idle (cfg : Parameters) (s : State) (a : HostAction)
    (rest : List HostAction) (hp : s.phase = .idle) (hh : s.host = a :: rest) : stepWith cfg s = (hostFetch cfg a { s with host := rest }).outcome := by
  refine stepWith_of_acts cfg s a rest hh ?_
  rw [hp]
  cases a <;> rfl

/-- R81: a run of writes to `OB`. -/
theorem runSteps_obActions (cfg : Parameters) (bytes : List Byte) (k m : Nat) (s : State)
    (tail : List HostAction)
    (hp : s.phase = .idle) (hk : k + bytes.length ≤ Config.maxLen)
    (hh : s.host = obActions k bytes ++ tail) :
    runSteps cfg (bytes.length + m) s =
      runSteps cfg m { s with ob := s.ob.writeAll k bytes, host := tail } := by
  induction bytes generalizing k s with
  | nil =>
    obtain rfl : s.host = tail := hh
    rw [List.length_nil, Nat.zero_add]; rfl
  | cons b bs ih =>
    simp only [List.length_cons] at hk
    have hm : Config.maxLen = 8191 := rfl
    have hb : (BitVec.ofNat 13 k).toNat = k := by simp; omega
    have h1 : stepWith cfg s =
        .next { s with ob := s.ob.write k b, host := obActions (k + 1) bs ++ tail } := by
      rw [stepWith_host_idle cfg s _ _ hp hh]
      simp only [hostFetch, Fetched.outcome, hostObWrite, hb]; rfl
    rw [show (b :: bs).length + m = (bs.length + m) + 1 by simp; omega, runSteps_succ _ _ _ _ h1,
      ih (k + 1) { s with ob := s.ob.write k b, host := obActions (k + 1) bs ++ tail } hp
        (by omega) rfl]
    rfl

end Sys2Proof.Machine
end

