-- ==== Sys2Proof/Machine/Output.lean ====
section
/-! DEFINITION. What the HOST writes for a response (spec/43_session_sequences.md R152): host software, kept
apart from the core. `State.emitted` holds the responses themselves. -/

namespace Sys2Proof.Machine

/-- R152: the ASCII code of a hexadecimal digit below 16; `HEX_CASE` is OPEN, so `upper` is an argument. -/
def hexDigit (upper : Bool) (d : Nat) : Byte :=
  if d < 10 then BitVec.ofNat 8 (0x30 + d)
  else if upper then BitVec.ofNat 8 (0x41 + (d - 10))
  else BitVec.ofNat 8 (0x61 + (d - 10))

/-- R152: a byte as two hexadecimal digits, the high nibble first. -/
def hexPair (upper : Bool) (b : Byte) : List Byte :=
  [hexDigit upper (b.toNat / 16), hexDigit upper (b.toNat % 16)]

/-- R152: the pairs separated by one space, none after the last. -/
def hexPairs (upper : Bool) : List Byte → List Byte
  | [] => []
  | [b] => hexPair upper b
  | b :: c :: bs => hexPair upper b ++ 0x20 :: hexPairs upper (c :: bs)

/-- R152: one unit of output: in hex mode the pairs and one newline, in raw mode the bytes alone. -/
def renderResponse (mode : OutputMode) (upper : Bool) (response : List Byte) : List Byte :=
  match mode with
  | .hex => hexPairs upper response ++ [0x0A]
  | .raw => response

/-- R149, R150, R152: all that a session has written so far, in the configured output mode and `HEX_CASE`. -/
def State.output (cfg : Parameters) (s : State) : List Byte :=
  (s.emitted.map (renderResponse cfg.output cfg.hexUpper)).flatten

end Sys2Proof.Machine
end

