-- ==== Sys2Proof/Tests/Slice0.lean ====
section
/-! SUPPORT. Tests: the smoke test of WellFormed, decoding of words written out from the encoding tables, single
steps with the values of spec/95_test_vectors.md, and for each statement with hypotheses a witness that
meets them. -/

namespace Sys2Proof.Tests

open Sys2Proof.Machine

/-! ### Helpers -/

/-- An idle core just after reset, with what the HOST and the LINK will do. -/
def idle (host : List HostAction) (link : List LinkInput) : State :=
  { State.reset with host := host, link := link }

/-- A core in a phase of an operation of length `len`. -/
def inPhase (p : Phase) (len : Length) (link : List LinkInput) : State :=
  { State.reset with phase := p, len := len, link := link }

/-- Parameters with a mode, `LINK_ANSWERS` not assumed. -/
def mode (m : SessionMode) : Parameters :=
  { mode := m, output := .hex, hexUpper := true, hostBinding := 0, ctlLineId := 0,
    linkAnswers := false }

/-- A HOST in `DeviceReady`, at the beginning of the sequence of its mode. -/
def ready (host : List HostAction) (link : List LinkInput) : State :=
  { idle host link with hostState := .deviceReady, device := .jtagSelected }

/-- A HOST in `InteractiveLoop`, between two blocks. -/
def looping (host : List HostAction) (link : List LinkInput) : State :=
  { idle host link with hostState := .interactiveLoop, device := .jtagSelected, stage := .finished }

/-- What a field of the next state is. -/
def after {α : Type} (f : State → α) : Host.Outcome State Fault Refusal → Option α
  | .next t => some (f t)
  | .fault _ => none
  | .refused _ => none

/-- How a step is refused. -/
def refusal : Host.Outcome State Fault Refusal → Option Refusal
  | .next _ => none
  | .fault _ => none
  | .refused r => some r

/-- The buffer that holds the bytes of a list from index 0 on. -/
def holding (bytes : List Byte) : Memory := Memory.writeAll [] 0 bytes

/-! ### WellFormed (R74, R77) -/

theorem test_transact_too_long_illformed : WellFormed (.transact 8192) = false := by decide
theorem test_transact_longest_wellformed : WellFormed (.transact 8191) = true := by decide
theorem test_xchg_partial_byte_illformed : WellFormed (.xchg 7) = false := by decide
theorem test_xchg_longest_wellformed : WellFormed (.xchg 0xFFF8) = true := by decide

/-! ### Decoding: words written out bit by bit from R75, R76 and R73 -/

theorem test_decode_setcs : decode (.c 0b001_000000000000_1#16) = .ok (.setcs true) := by decide
theorem test_decode_setcs_off : decode (.c 0b001_000000000000_0#16) = .ok (.setcs false) := by decide
theorem test_decode_transact : decode (.c 0b010_0000000000100#16) = .ok (.transact 4) := by decide
theorem test_decode_transact_longest : decode (.c 0b010_1111111111111#16) = .ok (.transact 8191) := by
  decide
theorem test_decode_ctlclr : decode (.l 0b00_0000000000000000#18) = .ok .ctlclr := by decide
theorem test_decode_ctlset : decode (.l 0b01_0000000000000000#18) = .ok .ctlset := by decide
theorem test_decode_xchg : decode (.l 0b10_0000000000100000#18) = .ok (.xchg 32) := by decide
theorem test_decode_rev8 : decode (.p 0b10011111#8) = .ok (.rev8 0x9F) := by decide

/-- R77: the reserved encodings are refused by name. -/
theorem test_decode_zero_word : decode (.c 0x0000#16) = .error .reservedOp := by decide
theorem test_decode_op3 : decode (.c 0x6000#16) = .error .reservedOp := by decide
theorem test_decode_setcs_argument : decode (.c 0x2002#16) = .error .setcsArgument := by decide
theorem test_decode_kind3 : decode (.l 0x30000#18) = .error .reservedKind := by decide
theorem test_decode_control_bc : decode (.l 0x10008#18) = .error .controlBitCount := by decide
theorem test_decode_partial_byte : decode (.l 0x20004#18) = .error .partialByte := by decide

/-- R75: the encoder gives the words of the spec's examples. -/
theorem test_encode_words : encode (.setcs true) = .c 0x2001#16 ∧
    encode (.transact 4) = .c 0x4004#16 ∧ encode (.xchg 0xFFF8) = .l 0x2FFF8#18 := by decide

/-- The table's numbers, by their widths. -/
theorem test_decodeTableWord : decodeTableWord 8 0x9F = some (.rev8 0x9F) ∧
    decodeTableWord 16 0x4004 = some (.transact 4) ∧
    decodeTableWord 18 0x10000 = some .ctlset ∧ decodeTableWord 24 0x20020 = some (.xchg 32) ∧
    decodeTableWord 16 0x6000 = none ∧ decodeTableWord 24 0x30000 = none := by decide

/-! ### Single steps (spec/95_test_vectors.md) -/

/-- Section 2.2: `REV8 9F` = F9. -/
theorem test_rev8_step : after State.revOut (step (idle [.codec 0x9F] [])) = some 0xF9 := by decide

/-- Section 2.2: `REV8 12` = 48, while the core is busy. -/
theorem test_rev8_busy :
    after State.revOut (step { inPhase .exchange 4 [] with host := [.codec 0x12] }) = some 0x48 := by
  decide

/-- Section 2.4, row 1: `setcs 0` answered `ok`. -/
theorem test_setcs_off_ok :
    after (fun t => (t.css, t.done, t.linkLog))
      (step { inPhase .csOnly 0 [.answer (.ok [])] with csen := false }) =
    some (.deasserted, true, [.ctlSet (.ok [])]) := by decide

/-- Section 2.4, row 6: `setcs 1` answered `fail`. -/
theorem test_setcs_on_fail :
    after (fun t => (t.css, t.err, t.ecode, t.linkLog))
      (step { inPhase .csOnly 0 [.answer (.fail 5)] with csen := true, css := .deasserted }) =
    some (.unknown, true, .eCtl, [.ctlClear (.fail 5)]) := rfl

/-- R115, worked example: the acceptance of `transact 4`. -/
theorem test_transact_accept :
    after (fun t => (t.phase, t.len, t.bitcnt, t.ibvalid))
      (step { idle [.command 0x4004] [] with ibvalid := true, ilen := 3 }) =
    some (.assert, 4, 32, false) := by decide

/-- R172, section 2.8: `TRANSACT 8192`. -/
theorem test_transact_too_long :
    after (fun t => (t.ecode, t.phase, t.len, t.linkLog)) (exec (.transact 8192) (idle [] [])) =
    some (.eLen, .idle, 0, []) := by decide

/-- R115, worked example: `TX` after phase `REVOUT`. -/
theorem test_revOut :
    after (fun t => (t.phase, t.tx))
      (step { inPhase .revOut 4 [] with ob := holding [0x9F, 0x00, 0x00, 0x00] }) =
    some (.exchange, holding [0xF9, 0x00, 0x00, 0x00]) := by decide

/-- R102: `CTLCLR` answered `ok`: the line is cleared. -/
theorem test_ctlclr_ok :
    after (fun t => (t.css, t.line, t.phase)) (exec .ctlclr (inPhase .assert 4 [.answer (.ok [])])) =
    some (.asserted, .low, .revOut) := by decide

/-- Section 2.8, row 1: `CTLCLR` answered `fail`. -/
theorem test_ctlclr_fail :
    after (fun t => (t.css, t.ecode, t.fph, t.lerr, t.phase))
      (exec .ctlclr (inPhase .assert 4 [.answer (.fail 1)])) =
    some (.unknown, .eCsAssert, .assert, 1, .idle) := rfl

/-- R103: `CTLSET` answered `ok`: the line is set. -/
theorem test_ctlset_ok :
    after (fun t => (t.css, t.line, t.phase)) (exec .ctlset (inPhase .deassert 4 [.answer (.ok [])])) =
    some (.deasserted, .high, .revIn) := by decide

/-- Section 2.8, row 3: `CTLSET` answered `fail`. -/
theorem test_ctlset_fail :
    after (fun t => (t.css, t.ecode, t.fph, t.ib))
      (exec .ctlset { inPhase .deassert 1 [.answer (.fail 3)] with ib := holding [0xFF] }) =
    some (.unknown, .eCsDeassert, .deassert, []) := by decide

/-- R115, worked example: the exchange answered `ok`. -/
theorem test_xchg_ok :
    after (fun t => (t.phase, t.ib, t.linkLog))
      (exec (.xchg 32) { inPhase .exchange 4 [.answer (.ok [0xFF, 0xF7, 0x02, 0x18])] with
        tx := holding [0xF9, 0x00, 0x00, 0x00] }) =
    some (.deassert, holding [0xFF, 0xF7, 0x02, 0x18],
      [.xchg [0xF9, 0x00, 0x00, 0x00] 32 (.ok [0xFF, 0xF7, 0x02, 0x18])]) := by decide

/-- Section 2.8, row 2: the exchange answered `fail`: the chip select is left asserted. -/
theorem test_xchg_fail :
    after (fun t => (t.phase, t.css, t.ecode, t.fph, t.lerr))
      (exec (.xchg 16) { inPhase .exchange 2 [.answer (.fail 2)] with css := .asserted }) =
    some (.idle, .asserted, .eXchg, .exchange, 2) := rfl

/-- R115, worked example: `IB` after phase `REVIN`. -/
theorem test_revIn :
    after (fun t => (t.phase, t.ib, t.ilen, t.ibvalid, t.done))
      (step { inPhase .revIn 4 [] with ib := holding [0xFF, 0xF7, 0x02, 0x18] }) =
    some (.idle, holding [0xFF, 0xEF, 0x40, 0x18], 4, true, true) := by decide

/-- Section 2.7: an illegal word from `IBVALID` = 1, `ILEN` = 4. -/
theorem test_illegal_word :
    after (fun t => (t.err, t.ecode, t.fph, t.done, t.ibvalid, t.ilen))
      (step { idle [.command 0x0000] [] with ibvalid := true, ilen := 4, done := true }) =
    some (true, .eCmd, .idle, false, true, 4) := by decide

/-- R41: a write to index 8191 is dropped, one to index 8190 is not. -/
theorem test_ob_write_edges :
    after State.ob (step (idle [.obWrite 8191 0xAA] [])) = some [] ∧
    after State.ob (step (idle [.obWrite 8190 0xAA] [])) = some [(8190, 0xAA)] := by decide

/-- Section 3, P1: `SO` of the bytes F9 00 is 10011111 00000000. -/
theorem test_so : ser Config.linkBitOrder [0xF9, 0x00] =
    [true, false, false, true, true, true, true, true,
     false, false, false, false, false, false, false, false] := by decide

/-- Section 2.3: `REVBUF` in place. -/
theorem test_revBuf_in_place :
    after State.ob (revBuf .ob .ob 0 0 4 { idle [] [] with ob := holding [0x12, 0x34, 0x56, 0x78] }) =
    some (holding [0x48, 0x2C, 0x6A, 0x1E]) := by decide

/-- R197: a late answer to an abandoned request is passed over. -/
theorem test_late_answer :
    nextAnswer [.late (.ok []), .answer (.fail 1)] = some (.fail 1, []) := rfl

/-- Section 2.9, row 1: `9F 00` and a newline, in capitals; an empty response is the newline alone. -/
theorem test_hex_output : renderResponse .hex true [0x9F, 0x00] = [0x39, 0x46, 0x20, 0x30, 0x30, 0x0A] ∧
    renderResponse .hex true [] = [0x0A] ∧ renderResponse .raw true [0x9F] = [0x9F] := by decide

/-- R146, R147: from `Idle` a lone end of `BOOT`, a lone sequence and a lone `CLOSE` in success have no edge; a
fatal condition closes the session as failed. -/
theorem test_session_order :
    refusal (step (idle [.ready] [])) = some .sessionOrder ∧
    refusal (stepWith (mode .oneShot) (idle [.start []] [])) = some .sessionOrder ∧
    refusal (step (idle [.close true] [])) = some .sessionOrder ∧
    after State.hostState (step (idle [.close false] [])) = some (.closed false) := by decide

/-- R147, R199: the device is open when `BOOT`'s own `setcs 0` is issued; `DeviceReady` is not reached while
`CSS` is not `DEASSERTED`. -/
theorem test_boot_order :
    after (fun t => (t.hostState, t.device)) (stepWith (mode .oneShot) (idle [.boot] [])) =
      some (.idle, .opened) ∧
    refusal (step { idle [.ready] [] with device := .opened, stage := .booting, done := true }) =
      some .sessionOrder ∧
    after (fun t => (t.hostState, t.device))
      (step { idle [.ready] [] with device := .opened, stage := .booting, done := true, css := .deasserted })
      = some (.deviceReady, .jtagSelected) := by decide

/-- R154 (a): a block length out of range is fatal at start-up and no device is opened; R156: under another mode
an interactive session has no further round. -/
theorem test_block_length :
    ([0, 8192].all fun l => [HostAction.session [], .boot].all fun a =>
      after (fun t => (t.hostState, t.device, t.host))
        (stepWith (mode (.interactive l)) (idle [a, .yield] [])) = some (.closed false, .notOpen, [])) ∧
    ([1, 8191].all fun l => after State.device (stepWith (mode (.interactive l)) (idle [.boot] [])) =
      some .opened) ∧
    refusal (stepWith (mode .oneShot) (looping [.start []] [])) = some .sessionOrder := by decide

/-- R182: a failure whose recovery is due is not closed over, neither by `CLOSE`, nor by the end of an input, nor
by an oversized one; R183: the failed recovery is not repeated. -/
theorem test_close_owed :
    (let failure (acts : List HostAction) : State :=
      { ready acts [] with err := true, ecode := .eXchg, css := .asserted }
     [(SessionMode.oneShot, HostAction.close false), (.interactive 1, .start []),
      (.oneShot, .start (List.replicate 8192 0)), (.interactive 0, .start [])].all
        fun c => after State.host (stepWith (mode c.1) (failure [c.2])) =
          some [.command 0x2000, .close false]) ∧
    after State.recovery (step { idle [.command 0x2001] [] with err := true, ecode := .eXchg }) =
      some .owed ∧
    after State.host (step { ready [.close false] [] with recovery := .owed }) =
      some [.command 0x2000, .close false] ∧
    after State.hostState (step { ready [.close false] [] with
      err := true, ecode := .eCtl, stage := .failed, recovery := .issued }) = some (.closed false) := by
  decide

/-- The word of the table that `withFetchWord` places is the one that runs first after reset. -/
theorem test_withFetchWord :
    after State.revOut (step (State.reset.withFetchWord 8 0x01)) = some 0x80 ∧
    after State.csen (step (State.reset.withFetchWord 16 0x2001)) = some true ∧
    after (fun t => (t.phase, t.waiting)) (step (State.reset.withFetchWord 24 0x10000)) =
      some (.deassert, true) ∧
    after (fun t => (t.phase, t.waiting, t.bitcnt)) (step (State.reset.withFetchWord 24 0x20020)) =
      some (.exchange, true, 32) := by decide

/-! ### Witnesses: concrete states and operands that meet the hypotheses of the statements -/

theorem witness_DecodeOfEncode : WellFormed (.rev8 0xFF) = true ∧ WellFormed (.setcs false) = true ∧
    WellFormed (.transact 0) = true ∧ WellFormed (.transact 8191) = true ∧
    WellFormed .ctlclr = true ∧ WellFormed .ctlset = true ∧ WellFormed (.xchg 0) = true ∧
    WellFormed (.xchg 0xFFF8) = true := by decide

theorem witness_EncodeOfDecode : decode (.c 0x5FFF#16) = .ok (.transact 8191) ∧
    decode (.l 0x2FFF8#18) = .ok (.xchg 65528) ∧ decode (.p 0xFF#8) = .ok (.rev8 0xFF) := by decide

theorem witness_IllegalCommandsRejected (w : CommandWord) :
    (idle [.command w] []).phase = .idle ∧ (idle [.command w] []).host = .command w :: [] := ⟨rfl, rfl⟩

/-- The illegal words at the ends of the three ranges of R77, and the legal words beside them. -/
theorem witness_IllegalCommandsRejected_words :
    ([0x0000#16, 0x1FFF#16, 0x2002#16, 0x3FFF#16, 0x6000#16, 0xFFFF#16].any
      fun w => (decode (.c w)).isOk) = false ∧
    ([0x2000#16, 0x2001#16, 0x4000#16, 0x5FFF#16].all fun w => (decode (.c w)).isOk) = true := by
  decide

theorem witness_IllegalCommandsRejected_requests :
    (inPhase .exchange 8191 []).requestWord = some 0x2FFF8#18 ∧
    (inPhase .assert 0 []).requestWord = some 0x00000#18 := by decide

theorem witness_StepRunsDecodedInstruction :
    (idle [.command 0x4004] []).phase = .idle ∧ decode (.c 0x4004#16) = .ok (.transact 4) ∧
    (idle [.codec 0x9F] []).host = [.codec 0x9F] ∧ decode (.p 0x9F#8) = .ok (.rev8 0x9F) ∧
    hostWaits (inPhase .exchange 4 []) = true ∧
    (inPhase .exchange 4 []).requestWord = some 0x20020#18 ∧
    decode (.l 0x20020#18) = .ok (.xchg 32) ∧
    ({ inPhase .deassert 4 [] with host := [.yield] } : State).requestWord = some 0x10000#18 ∧
    decode (.l 0x10000#18) = .ok .ctlset := by decide

theorem witness_Rev8Instruction : decode (.p 0x00#8) = .ok (.rev8 0x00) ∧
    ({ inPhase .exchange 4 [] with host := [.codec 0x01] } : State).host = .codec 0x01 :: [] := by decide

/-- Every clause of the general `REVBUF`: whole buffers, offsets apart, a partial overlap, and ranges that
leave the buffer by one. -/
theorem witness_RevBufReverses :
    (0 + 8191 ≤ Config.maxLen ∧ partialOverlap .tx .ob 0 0 8191 = false) ∧
    (8190 + 1 ≤ Config.maxLen ∧ partialOverlap .ob .ob 8190 0 1 = false) ∧
    partialOverlap .ib .ib 4 4 4 = false ∧ partialOverlap .ob .ob 4 0 4 = false ∧
    partialOverlap .ob .ob 3 0 4 = true ∧ Config.maxLen < 8191 + 1 := by decide

theorem witness_IdleAccepts : (idle [] []).phase = .idle ∧ 8191 ≤ Config.maxLen ∧
    0 ≤ Config.maxLen ∧ Config.maxLen < 8192 := by decide

theorem witness_SetcsOperation :
    (let s := idle [.command 0x2001, .check] [.answer (.ok [])]
     StartsSetcs s true [.check] ∧ nextAnswer s.link = some (.ok [], [])) ∧
    (let s := idle [.command 0x2000] [.answer (.fail 1)]
     StartsSetcs s false [] ∧ nextAnswer s.link = some (.fail 1, [])) :=
  ⟨⟨⟨rfl, rfl, rfl⟩, rfl⟩, ⟨⟨rfl, rfl, rfl⟩, rfl⟩⟩

theorem witness_SetcsIdempotent :
    let s := idle [.command 0x2001, .command 0x2001] [.answer (.ok []), .answer (.ok [])]
    StartsSetcs s true [.command 0x2001] ∧ blocking [] = true ∧
      s.link = [.answer (.ok []), .answer (.ok [])] := ⟨⟨rfl, rfl, rfl⟩, rfl, rfl⟩

/-- A request of each kind, with each answer and with none. -/
theorem witness_ControlAnswered :
    (let s := inPhase .assert 4 [.answer (.ok [])]
     s.request = some .ctlclr ∧ nextAnswer s.link = some (.ok [], [])) ∧
    (let s : State := { inPhase .csOnly 0 [.late (.ok []), .answer (.fail 7)] with csen := true }
     s.request = some .ctlclr ∧ nextAnswer s.link = some (.fail 7, [])) ∧
    (let s := inPhase .deassert 4 [.answer (.ok [])]
     s.request = some .ctlset ∧ nextAnswer s.link = some (.ok [], [])) ∧
    (let s := inPhase .deassert 4 [.answer (.fail 0)]
     s.request = some .ctlset ∧ nextAnswer s.link = some (.fail 0, [])) ∧
    (let s : State := { inPhase .csOnly 0 [.silent] with csen := false }
     s.request = some .ctlset ∧ nextAnswer s.link = none) :=
  ⟨⟨rfl, rfl⟩, ⟨rfl, rfl⟩, ⟨rfl, rfl⟩, ⟨rfl, rfl⟩, rfl, rfl⟩

/-- A step that changes `CSS`: by an answer, and by reset. -/
theorem witness_CssTransitions :
    after State.css (step (inPhase .assert 4 [.answer (.ok [])])) = some .asserted ∧
    (inPhase .assert 4 [.answer (.ok [])]).css = .unknown ∧
    after State.css (step { idle [.reset] [] with css := .deasserted }) = some .unknown := by decide

theorem witness_NoCommandWhileBusy :
    (let s : State := { inPhase .exchange 4 [] with host := [.command 0x2000] }
     s.busy = true ∧ s.host = .command 0x2000 :: []) ∧
    (let s : State := { inPhase .csOnly 4 [] with host := [.obWrite 8190 1] }
     s.busy = true ∧ s.host = .obWrite 8190 1 :: []) ∧
    (let s : State := { inPhase .revIn 4 [] with host := [.ibRead 0] }
     s.busy = true ∧ s.host = .ibRead 0 :: []) := by decide

/-- Each phase of a `TRANSACT`, the HOST waiting, with each answer; the shortest and the longest. -/
theorem witness_Phases :
    (let s := inPhase .assert 8191 [.answer (.ok [])]
     hostWaits s = true ∧ s.phase = .assert ∧ nextAnswer s.link = some (.ok [], [])) ∧
    (let s : State := { inPhase .assert 0 [.answer (.fail 1)] with host := [.check] }
     hostWaits s = true ∧ s.phase = .assert ∧ nextAnswer s.link = some (.fail 1, [])) ∧
    (hostWaits (inPhase .revOut 0 []) = true ∧ hostWaits (inPhase .revOut 8191 []) = true ∧
      (inPhase .revOut 8191 []).phase = .revOut) ∧
    (let s := inPhase .deassert 0 [.answer (.ok [])]
     hostWaits s = true ∧ s.phase = .deassert ∧ nextAnswer s.link = some (.ok [], [])) ∧
    (let s := inPhase .deassert 8191 [.answer (.fail 1)]
     hostWaits s = true ∧ s.phase = .deassert ∧ nextAnswer s.link = some (.fail 1, [])) ∧
    (hostWaits (inPhase .revIn 0 []) = true ∧ hostWaits (inPhase .revIn 8191 []) = true ∧
      (inPhase .revIn 8191 []).phase = .revIn) :=
  ⟨⟨rfl, rfl, rfl⟩, ⟨rfl, rfl, rfl⟩, ⟨rfl, rfl, rfl⟩, ⟨rfl, rfl, rfl⟩, ⟨rfl, rfl, rfl⟩, rfl, rfl, rfl⟩

theorem witness_ExchangeAnswered :
    (let s := inPhase .exchange 2 [.answer (.ok [1, 2])]
     s.phase = .exchange ∧ nextAnswer s.link = some (.ok [1, 2], []) ∧
      [(1 : Byte), 2].length = s.len.toNat) ∧
    (let s := inPhase .exchange 0 [.answer (.ok [])]
     s.phase = .exchange ∧ nextAnswer s.link = some (.ok [], []) ∧
      ([] : List Byte).length = s.len.toNat) ∧
    (let s : State := { inPhase .exchange 2 [.answer (.fail 9)] with css := .asserted }
     s.phase = .exchange ∧ nextAnswer s.link = some (.fail 9, []) ∧ s.css = .asserted) :=
  ⟨⟨rfl, rfl, rfl⟩, ⟨rfl, rfl, rfl⟩, rfl, rfl, rfl⟩

/-- One byte too few, one too many. -/
theorem witness_WrongLengthAnswerFails :
    (let s := inPhase .exchange 2 [.answer (.ok [1])]
     s.phase = .exchange ∧ nextAnswer s.link = some (.ok [1], []) ∧ [(1 : Byte)].length ≠ s.len.toNat) ∧
    (let s := inPhase .exchange 0 [.answer (.ok [1])]
     s.phase = .exchange ∧ nextAnswer s.link = some (.ok [1], []) ∧
      [(1 : Byte)].length ≠ s.len.toNat) := by decide

theorem witness_EndsIfAnsweredElseHangs_hang :
    (inPhase .exchange 4 [.silent, .late (.ok [])]).request ≠ none ∧
    hostWaits (inPhase .exchange 4 [.silent, .late (.ok [])]) = true ∧
    nextAnswer (inPhase .exchange 4 [.silent]).link = none ∧
    (∀ a, LinkInput.answer a ∉ (inPhase .exchange 4 [.silent, .late (.ok [])]).link) := by
  refine ⟨by decide, by decide, by decide, ?_⟩
  intro a h
  simp [inPhase] at h

/-- A LINK that is silent for a step and then fails the request, where `LINK_ANSWERS` is assumed. -/
theorem witness_EndsIfAnsweredElseHangs_end :
    let cfg := { mode .oneShot with linkAnswers := true }
    let s : State := { inPhase .csOnly 0 [.silent, .answer (.fail 1)] with csen := true }
    cfg.linkAnswers = true ∧ LinkAdmitted cfg s ∧ s.busy = true ∧ blocking s.host = true := by
  refine ⟨rfl, fun _ n t h hr => ?_, rfl, rfl⟩
  match n with
  | 0 => cases h; exact ⟨.fail 1, .tail _ (.head _)⟩
  | 1 => rw [runSteps_succ _ _ _ _ rfl] at h; cases h; exact ⟨.fail 1, .head _⟩
  | n + 2 =>
    rw [runSteps_succ _ _ _ _ rfl, runSteps_succ _ _ _ _ rfl, runSteps_rest _ _ _ rfl rfl] at h
    cases h
    cases hr

/-- Requests that their phase does not issue: none at all, another kind, another bit count. -/
theorem witness_RequestOutOfPhaseRefused : (idle [] []).request ≠ some .ctlclr ∧
    (inPhase .assert 4 []).request ≠ some .ctlset ∧
    (inPhase .exchange 4 []).request ≠ some (.xchg 40) := by decide

/-- The step of a successful `CTLCLR` is one that the statements about every step speak of. -/
theorem witness_EveryStep : FlagsExclusive (inPhase .assert 4 [.answer (.ok [])]) ∧
    after State.phase (step (inPhase .assert 4 [.answer (.ok [])])) = some .revOut ∧
    after (fun t => t.linkLog.length) (step (inPhase .assert 4 [.answer (.ok [])])) = some 1 :=
  ⟨by unfold FlagsExclusive; decide, by decide, by decide⟩

/-- The events of the phase table, each at a state of its phase: the two acceptances, the answers, an answer of the
wrong length, and a core that waits. -/
theorem witness_PhaseTransitions :
    Accepts (idle [.command 0x2001] []) (.setcs true) ∧
    Accepts (idle [.command 0x5FFF] []) (.transact 8191) ∧
    NoPhaseEvent (inPhase .assert 4 []) ∧
    CoreTurn { inPhase .csOnly 0 [.answer (.ok [])] with host := [.yield] } ∧
    AnsweredOk (inPhase .deassert 4 [.answer (.ok [])]) ∧
    AnsweredFail (inPhase .assert 4 [.answer (.fail 1)]) ∧
    ExchangedOk (inPhase .exchange 1 [.answer (.ok [7])]) ∧
    ExchangedFail (inPhase .exchange 1 [.answer (.ok [])]) ∧
    (idle [] []).phase = .idle ∧ (idle [] []).host = [] ∧ (idle [.yield] []).host = .yield :: [] :=
  ⟨⟨_, _, rfl, rfl⟩, ⟨_, _, rfl, rfl⟩, .inr ⟨nofun, .inr ⟨rfl, rfl⟩⟩, .inr ⟨_, rfl⟩, ⟨_, _, rfl⟩,
    ⟨_, _, rfl⟩, ⟨_, _, rfl, rfl⟩, .inr ⟨_, _, rfl, by decide⟩, rfl, rfl, rfl⟩

/-- A core in the middle of a `TRANSACT`: one byte about to be exchanged. -/
def exchanging : State :=
  { inPhase .exchange 1 [.answer (.ok [0xFF])] with
    ob := holding [0x9F], tx := holding [0xF9], css := .asserted, line := .low,
    linkLog := [.ctlClear (.ok [])] }

/-- The same core in an interactive session. -/
def exchangingBlock : State :=
  { exchanging with hostState := .interactiveLoop, device := .jtagSelected, stage := .transferring }

/-- All of the invariant but the HOST's session. -/
theorem exchanging_inv (cfg : Parameters) (hs : HostState) (d : Device) (g : SessionStage)
    (h : SessionHeld cfg { exchanging with hostState := hs, device := d, stage := g }) :
    Inv cfg { exchanging with hostState := hs, device := d, stage := g } := by
  refine ⟨?_, ?_, ?_, ?_, ?_, ?_, ?_, ?_, h⟩
  · show BuffersWf exchanging; unfold BuffersWf; decide
  · exact ⟨nofun, fun _ => ⟨rfl, rfl⟩⟩
  · exact ⟨fun _ => ⟨rfl, rfl⟩, nofun⟩
  · exact ⟨nofun, fun _ => rfl⟩
  · intro _ k hk
    have h0 : k = 0 := by
      have : k < 1 := hk
      omega
    subst h0
    show exchanging.tx.read 0 = some (rev8 (exchanging.readByte .ob 0))
    decide
  · exact ⟨fun _ => rfl, nofun⟩
  · exact ⟨fun _ => rfl, nofun, rfl⟩
  · exact nofun

/-- Under every configuration before a session, and in a session whose mode is the configured one. -/
theorem witness_InvariantKept : (∀ cfg, Inv cfg exchanging) ∧
    after State.phase (step exchanging) = some .deassert ∧
    Inv (mode (.interactive 1)) exchangingBlock ∧
    after State.phase (stepWith (mode (.interactive 1)) exchangingBlock) = some .deassert := by
  refine ⟨fun cfg => exchanging_inv cfg _ _ _ ⟨(absurd rfl ·), .inl ⟨rfl, .inl rfl⟩⟩, by decide,
    exchanging_inv _ _ _ _ ⟨fun _ => ?_, rfl, ⟨1, rfl, by decide, by decide⟩, .inl rfl⟩, by decide⟩
  rintro ⟨l, hl, h⟩
  cases hl
  revert h
  decide

/-- The five outcomes of a `TRANSACT 2`: success, the echo, and the three failures. -/
theorem witness_TransactOutcomes :
    let start (link : List LinkInput) := idle [.command 0x4002, .emit] link
    (∀ link, StartsTransact (start link) 2 [.emit] ∧ (start link).link = link) ∧
      [(1 : Byte), 2].length = 2 ∧ (outArray (start []) 2).length = 2 :=
  ⟨fun _ => ⟨⟨rfl, rfl, by decide, rfl⟩, rfl⟩, rfl, rfl⟩

/-- The shortest and the longest `TRANSACT`, whatever the LINK answers. -/
theorem witness_TransactEdges (link : List LinkInput) :
    StartsTransact (idle [.command 0x4000] link) 0 [] ∧ (idle [.command 0x4000] link).link = link ∧
    StartsTransact (idle [.command 0x5FFF] link) 8191 [] ∧
    (List.replicate 8191 (0 : Byte)).length = 8191 :=
  ⟨⟨rfl, rfl, by decide, rfl⟩, rfl, ⟨rfl, rfl, by decide, rfl⟩, List.length_replicate⟩

theorem witness_OutboundWritePort :
    (let s := idle [.obWrite 8190 0xAA] []
     s.phase = .idle ∧ s.host = .obWrite 8190 0xAA :: [] ∧ (8190#13).toNat ≤ 8190) ∧
    (let s := idle [.obWrite 8191 0xAA] []
     s.phase = .idle ∧ s.host = .obWrite 8191 0xAA :: [] ∧ (8191#13).toNat = 8191) := by decide

/-- The last byte of `OB`, written; a byte nothing has written; and the index outside the buffer. -/
theorem witness_OutboundReadPort :
    (let s : State := { idle [.obRead 8190] [] with ob := [(8190, 7)] }
     s.phase = .idle ∧ s.host = .obRead 8190 :: [] ∧ (8190#13).toNat ≤ 8190 ∧
      s.ob.read (8190#13).toNat = some 7) ∧
    (let s := idle [.obRead 0] []
     s.phase = .idle ∧ s.host = .obRead 0 :: [] ∧ (0#13).toNat ≤ 8190) ∧
    (let s := idle [.obRead 8191] []
     s.phase = .idle ∧ s.host = .obRead 8191 :: [] ∧ (8191#13).toNat = 8191) := by decide

/-- A byte of a valid response at its last index, the index above it, an invalid response, and the index
outside the buffer. -/
theorem witness_InboundReadPort :
    (let s : State := { idle [.ibRead 1] [] with ibvalid := true, ilen := 2, ib := holding [5, 6] }
     s.phase = .idle ∧ s.host = .ibRead 1 :: [] ∧ s.ibvalid = true ∧
      (1#13).toNat < s.ilen.toNat ∧ s.ib.read (1#13).toNat = some 6) ∧
    (let s : State := { idle [.ibRead 2] [] with ibvalid := true, ilen := 2, ib := holding [5, 6] }
     s.phase = .idle ∧ s.host = .ibRead 2 :: [] ∧ s.ilen.toNat ≤ (2#13).toNat) ∧
    (let s := idle [.ibRead 8190] []
     s.phase = .idle ∧ s.host = .ibRead 8190 :: [] ∧ (8190#13).toNat ≤ 8190 ∧ s.ibvalid = false) ∧
    (let s := idle [.ibRead 8191] []
     s.phase = .idle ∧ s.host = .ibRead 8191 :: [] ∧ (8191#13).toNat = 8191) := by decide

/-- A stream of one byte and a half: the whole byte is there. An exchange with `TX` the reversed `OB`. -/
theorem witness_SerialStreams : 0 < (inPhase .exchange 1 []).bitcnt.toNat ∧
    8 * 0 + 8 ≤ (List.replicate 12 true).length ∧
    (let s : State := { inPhase .exchange 1 [] with ob := holding [0x9F], tx := holding [0xF9] }
     s.phase = .exchange ∧ OutboundReversed s ∧ 0 < s.len.toNat) ∧
    [(7 : Byte)][0]? = some 7 := by
  refine ⟨by decide, by decide, ⟨rfl, ?_, by decide⟩, by decide⟩
  intro _ k hk
  have h0 : k = 0 := by
    have : k < 1 := hk
    omega
  subst h0
  decide

/-- The reset input in an idle core, and with each kind of request outstanding. -/
theorem witness_ResetInput :
    (let s := idle [.reset] []
     s.host = .reset :: [] ∧ s.busy = false ∧ s.waiting = false) ∧
    (let s : State := { inPhase .assert 4 [] with waiting := true, host := [.reset] }
     s.host = .reset :: [] ∧ s.waiting = true ∧ s.request = some .ctlclr) ∧
    (let s : State := { inPhase .deassert 4 [] with waiting := true, host := [.reset] }
     s.host = .reset :: [] ∧ s.waiting = true ∧ s.request = some .ctlset) ∧
    (let s : State := { inPhase .exchange 4 [] with waiting := true, host := [.reset] }
     s.host = .reset :: [] ∧ s.waiting = true ∧ s.phase = .exchange) := by decide

/-- Every clause: a failure that left the chip select asserted, one with `CSS` known, an illegal word, one
acknowledged and failed again, a failed recovery, a `CLOSE` with and without a recovery due, and each kind of
command. -/
theorem witness_HostRecovery :
    (let s : State := { idle [.check] [] with err := true, ecode := .eXchg, css := .asserted }
     s.phase = .idle ∧ s.err = true ∧ s.host = .check :: [] ∧ s.recovery = .clear ∧
      s.css ≠ .deasserted) ∧
    (let s : State := { idle [.emit] [] with err := true, ecode := .eCtl, css := .deasserted }
     s.phase = .idle ∧ s.err = true ∧ s.host = .emit :: [] ∧ s.recovery = .clear ∧
      s.css = .deasserted) ∧
    (let s : State := { ready [.start []] [] with err := true, ecode := .eCmd }
     s.phase = .idle ∧ s.err = true ∧ s.hostState = .deviceReady ∧ s.stage = .fresh ∧
      s.host = .start [] :: [] ∧ s.recovery = .clear ∧ s.ecode = .eCmd) ∧
    (let s : State := { idle [.check] [] with err := true, ecode := .eCmd, recovery := .owed }
     s.err = true ∧ s.recovery = .owed) ∧
    (let s : State := { idle [.check] [] with err := true, ecode := .eCtl, recovery := .issued }
     s.err = true ∧ s.recovery = .issued ∧ recoveryDue s = false) ∧
    (let s := looping [.close true] []
     recoveryDue { s with recovery := .owed } = true ∧ s.hostState ≠ .idle ∧ s.stage = .finished ∧
      ∀ c, s.hostState ≠ .closed c) ∧
    (let s := ready [.close false] []
     recoveryDue s = false ∧ s.host = .close false :: [] ∧ ∀ c, s.hostState ≠ .closed c) ∧
    (let s : State := { idle [.command 0x2000] [] with recovery := .owed }
     s.phase = .idle ∧ s.host = .command 0x2000 :: [] ∧ recoveryDue s = true ∧ s.stage ≠ .booting) ∧
    (let s : State := { idle [.command 0x4000] [] with recovery := .owed }
     s.host = .command 0x4000 :: [] ∧ recoveryDue s = true) := by
  decide

theorem interactive_mode (l : Nat) (h : 1 ≤ l ∧ l ≤ 8191) : Interactive (mode (.interactive l)) l := ⟨rfl, h⟩

/-- A state that is about to collect a block, with what it collects and a LINK. -/
theorem awaits (first : Bool) (host : List HostAction) (link : List LinkInput) :
    AwaitsBlock (if first then ready host link else looping host link) := by
  cases first
  · exact ⟨⟨rfl, nofun⟩, .inr ⟨rfl, rfl⟩⟩
  · exact ⟨⟨rfl, nofun⟩, .inl ⟨rfl, rfl⟩⟩

/-- Ten bytes in blocks of four: two are left over (section 2.9). And a session whose first block is not whole,
with the longest block. -/
theorem witness_PartialBlockIsFatal :
    (let s := looping [.start [1, 2]] []
     s.phase = .idle ∧ Interactive (mode (.interactive 4)) 4 ∧ AwaitsBlock s ∧
      0 < [(1 : Byte), 2].length ∧ [(1 : Byte), 2].length < 4 ∧ s.host = .start [1, 2] :: []) ∧
    (let s := ready [.start [1]] []
     s.phase = .idle ∧ Interactive (mode (.interactive 8191)) 8191 ∧ AwaitsBlock s ∧
      0 < [(1 : Byte)].length ∧ [(1 : Byte)].length < 8191 ∧ s.host = .start [1] :: []) :=
  ⟨⟨rfl, interactive_mode 4 (by decide), awaits false _ _, by decide, by decide, rfl⟩,
    ⟨rfl, interactive_mode 8191 (by decide), awaits true _ _, by decide, by decide, rfl⟩⟩

/-- One round of the shortest block from each state that begins one, a session of two rounds, and the input
that is empty from the start (section 2.9). -/
theorem witness_InteractiveSession :
    (let s := ready [.start [0x9F]] (transferAnswers [0x01])
     s.phase = .idle ∧ Interactive (mode (.interactive 1)) 1 ∧ AwaitsBlock s ∧
      1 ≤ [(0x9F : Byte)].length ∧ [(0x01 : Byte)].length = 1 ∧ s.host = .start [0x9F] :: [] ∧
      s.link = transferAnswers [0x01] ++ []) ∧
    (let s := looping [.start [0x9F]] (transferAnswers [0x01])
     AwaitsBlock s ∧ s.link = transferAnswers [0x01] ++ []) ∧
    (let rounds : List (List Byte × List Byte) := [([1, 2], [3, 4]), ([5, 6], [7, 8])]
     let s := ready [.start [1, 2, 5, 6]] (transferAnswers [3, 4] ++ transferAnswers [7, 8])
     s.phase = .idle ∧ Interactive (mode (.interactive 2)) 2 ∧ AwaitsBlock s ∧
      (∀ r ∈ rounds, r.1.length = 2 ∧ r.2.length = 2) ∧
      s.host = .start (rounds.flatMap fun r => r.1) :: [] ∧
      s.link = (rounds.flatMap fun r => transferAnswers r.2) ++ []) ∧
    (let rounds : List (List Byte × List Byte) := []
     let s := ready [.start []] []
     Interactive (mode (.interactive 8191)) 8191 ∧ AwaitsBlock s ∧
      s.host = .start (rounds.flatMap fun r => r.1) :: []) :=
  ⟨⟨rfl, interactive_mode 1 (by decide), awaits true _ _, by decide, rfl, rfl, rfl⟩,
    ⟨awaits false _ _, rfl⟩,
    ⟨rfl, interactive_mode 2 (by decide), awaits true _ _, by decide, rfl, rfl⟩,
    ⟨interactive_mode 8191 (by decide), awaits true _ _, rfl⟩⟩

theorem witness_OversizedInputIsFatal :
    let input := List.replicate 8192 (0 : Byte)
    let s := ready [.start input] []
    (mode .oneShot).mode = .oneShot ∧ s.phase = .idle ∧ s.hostState = .deviceReady ∧ s.stage = .fresh ∧
      NoFailure s ∧ Config.maxLen < input.length ∧ s.host = .start input :: [] :=
  ⟨rfl, rfl, rfl, rfl, ⟨rfl, by decide⟩, by rw [List.length_replicate]; decide, rfl⟩

/-- Two bytes, and the empty input. -/
theorem witness_OneShotEmitsResponse :
    (let s := ready [.start [0x9F, 0]] [.answer (.ok []), .answer (.ok [1, 2]), .answer (.ok [])]
     (mode .oneShot).mode = .oneShot ∧ s.phase = .idle ∧ s.hostState = .deviceReady ∧
      s.stage = .fresh ∧ NoFailure s ∧ [(0x9F : Byte), 0].length ≤ Config.maxLen ∧
      [(1 : Byte), 2].length = [(0x9F : Byte), 0].length ∧ s.host = .start [0x9F, 0] :: [] ∧
      s.link = [.answer (.ok []), .answer (.ok [1, 2]), .answer (.ok [])]) ∧
    (let s := ready [.start []] [.answer (.ok []), .answer (.ok []), .answer (.ok [])]
     s.phase = .idle ∧ s.hostState = .deviceReady ∧ s.stage = .fresh ∧ NoFailure s ∧
      s.host = .start [] :: []) :=
  ⟨⟨rfl, rfl, rfl, rfl, ⟨rfl, by decide⟩, by decide, rfl, rfl, rfl⟩, ⟨rfl, rfl, rfl, ⟨rfl, by decide⟩, rfl⟩⟩

/-- A `BOOT` under a configuration without error, at the ends of the range of `L` too; a session; a configuration
error, with no failure before and with one whose recovery is due. -/
theorem witness_BootForcesBaseline :
    (let s := idle [.boot] [.answer (.ok [])]
     [SessionMode.oneShot, .csAction true, .interactive 1, .interactive 8191].all
        (fun m => configOk (mode m)) = true ∧
      s.phase = .idle ∧ s.hostState = .idle ∧ s.device = .notOpen ∧ s.stage = .fresh ∧
      s.host = .boot :: [] ∧ s.link = [.answer (.ok [])]) ∧
    (idle [.session [7]] []).host = .session [7] :: [] ∧
    BadConfig (mode (.interactive 0)) ∧ BadConfig (mode (.interactive 8192)) ∧
    recoveryDue (idle [.boot] []) = false ∧
    recoveryDue { idle [.boot] [] with recovery := .owed } = true :=
  ⟨⟨by decide, rfl, rfl, rfl, rfl, rfl, rfl⟩, rfl, ⟨0, rfl, by decide⟩, ⟨8192, rfl, by decide⟩, rfl, rfl⟩

/-- A step along each edge of R146. -/
theorem witness_HostStateTransitions :
    let go (m : SessionMode) (s : State) : Option HostState := after State.hostState (stepWith (mode m) s)
    go .oneShot { idle [.ready] [] with
      device := .opened, stage := .booting, done := true, css := .deasserted } = some .deviceReady ∧
    go .oneShot (ready [.start []] []) = some .oneShotTransfer ∧
    go (.interactive 4) (ready [.start []] []) = some .interactiveLoop ∧
    go (.interactive 4) (looping [.close true] []) = some (.closed true) ∧
    go (.csAction true) { ready [.close true] [] with stage := .finished } = some (.closed true) ∧
    go .oneShot (ready [.close false] []) = some (.closed false) := by decide

theorem witness_CsActionSession (b : Bool) :
    let s := ready [.start [7]] [.answer (.ok [])]
    (mode (.csAction b)).mode = .csAction b ∧ s.phase = .idle ∧ s.hostState = .deviceReady ∧
      s.stage = .fresh ∧ NoFailure s ∧ s.host = .start [7] :: [] ∧ s.link = [.answer (.ok [])] :=
  ⟨rfl, rfl, rfl, rfl, ⟨rfl, nofun⟩, rfl, rfl⟩

theorem witness_StatusPortShowsRegisters :
    ({ inPhase .exchange 4 [] with host := [.readStatus] } : State).host = .readStatus :: [] := rfl

end Sys2Proof.Tests
end

section
/-! The family of spec/10_state.md: the view `BITCNT`, the read-back of `OB` and the status port. -/

namespace Sys2Proof.Machine

/-! ### `BITCNT` (R14) -/

theorem toNat_bitcnt (s : State) : s.bitcnt.toNat = s.len.toNat * 8 := toNat_bitCount s.len

theorem toNat_bitcnt_le (s : State) : s.bitcnt.toNat ≤ 65528 := by
  have hlen : s.len.toNat ≤ 8191 := len_le s.len
  rw [toNat_bitcnt]
  omega

/-- Every length in range is a value of `LEN`, so that each multiple of 8 up to 65528 is reached. -/
theorem toNat_bitcnt_ofNat (s : State) {m : Nat} (hm : m ≤ 8191) :
    ({ s with len := BitVec.ofNat 13 m } : State).bitcnt.toNat = 8 * m := by
  have hlen : (BitVec.ofNat 13 m).toNat = m := by
    rw [BitVec.toNat_ofNat, Nat.mod_eq_of_lt (by omega)]
  rw [toNat_bitcnt, hlen, Nat.mul_comm]

/-- Settles O17: `BITCNT` appends three 0 bits to `LEN`, which multiplies by 8. -/
theorem bitCountIsEightTimesLength : Obligations.BitCountIsEightTimesLength := by
  refine ⟨fun s => ⟨rfl, toNat_bitcnt s, ?_, toNat_bitcnt_le s⟩,
    fun _ s hm => toNat_bitcnt_ofNat s hm⟩
  rw [toNat_bitcnt]
  exact Nat.mul_mod_left _ 8

/-! ### The status port (R17, R27, R79) -/

section

variable (s : State)

theorem busy_iff : s.busy = true ↔ s.phase ≠ .idle := by simp [State.busy]

/-- R79: `STATUS` read from bit 3 down to bit 0. -/
theorem status_eq_concat :
    s.status = (((BitVec.ofBool s.ibvalid).concat s.err).concat s.done).concat s.busy := rfl

theorem status_getLsbD_zero : s.status.getLsbD 0 = s.busy := by
  rw [status_eq_concat, BitVec.getLsbD_concat_zero]

theorem status_getLsbD_one : s.status.getLsbD 1 = s.done := by
  rw [status_eq_concat, BitVec.getLsbD_concat_succ, BitVec.getLsbD_concat_zero]

theorem status_getLsbD_two : s.status.getLsbD 2 = s.err := by
  rw [status_eq_concat, BitVec.getLsbD_concat_succ, BitVec.getLsbD_concat_succ,
    BitVec.getLsbD_concat_zero]

theorem status_getLsbD_three : s.status.getLsbD 3 = s.ibvalid := by
  simp [status_eq_concat]

/-- R27: in every phase a read of the status port takes the HOST's action off its list and no more. -/
theorem step_readStatus (rest : List HostAction) (hh : s.host = .readStatus :: rest) :
    step s = .next { s with host := rest } := by
  rw [step_eq, stepWith_of_acts _ s .readStatus rest hh rfl]
  rfl

end

/-- Settles O57: `STATUS` bit by bit, the codes of R79 constructor by constructor, and the read itself. -/
theorem statusPortShowsRegisters : Obligations.StatusPortShowsRegisters := by
  intro s
  refine ⟨?busy, status_getLsbD_one s, status_getLsbD_two s, status_getLsbD_three s, rfl, ?ecode,
    ?fph, ?css, rfl, rfl, rfl, step_readStatus s⟩
  case busy => rw [status_getLsbD_zero, busy_iff]
  case ecode =>
    show ecodeCode s.ecode = _
    cases s.ecode <;> rfl
  case fph =>
    show phaseCode s.fph = _
    cases s.fph <;> rfl
  case css =>
    show cssCode s.css = _
    cases s.css <;> rfl

/-! ### The read-back of `OB` (R26, R41) -/

/-- A byte that holds a specified value is what the space reads there. -/
theorem readByte_of_read {s : State} {sp : Space} {k : Nat} {b : Byte}
    (h : (s.store sp).read k = some b) : s.readByte sp k = b := by
  simp [State.readByte, h]

/-- The buffers are kept where their storage is the same. -/
theorem buffersKept_of_store {s t : State} (h : ∀ sp, t.store sp = s.store sp) :
    BuffersKept s t := fun sp k => by rw [h sp]

/-- An idle core lets the HOST read `OB`. -/
theorem step_obRead {s : State} {addr : Length} {rest : List HostAction} (hp : s.phase = .idle)
    (hh : s.host = .obRead addr :: rest) :
    step s = .next (hostObRead addr { s with host := rest }) := by
  have hmay : hostMay (.obRead addr) s.phase = true := by simp [hostMay, hp]
  rw [step_eq, stepWith_of_acts _ s _ rest hh hmay]
  rfl

theorem hostObRead_of_le {addr : Length} (s : State) (h : addr.toNat ≤ 8190) :
    hostObRead addr s = { s with rdata := s.readByte .ob addr.toNat } :=
  if_pos (show addr.toNat < 8191 by omega)

theorem hostObRead_of_eq {addr : Length} (s : State) (h : addr.toNat = 8191) :
    hostObRead addr s = hostReadNothing s :=
  if_neg (show ¬ addr.toNat < 8191 by omega)

theorem hostObRead_store (addr : Length) (s : State) (sp : Space) :
    (hostObRead addr s).store sp = s.store sp := by
  unfold hostObRead
  split <;> cases sp <;> rfl

/-- R26, R41: the step of the read-back changes no byte of a buffer, at any index. -/
theorem buffersKept_hostObRead (addr : Length) (s : State) (rest : List HostAction) :
    BuffersKept s (hostObRead addr { s with host := rest }) :=
  buffersKept_of_store fun sp => (hostObRead_store addr _ sp).trans (by cases sp <;> rfl)

/-- Settles O58: the next state is `hostObRead`'s, which inside the buffer writes the read data only, and at
index 8191 draws it. -/
theorem outboundReadPort : Obligations.OutboundReadPort := by
  intro s addr rest hp hh
  have hstep := step_obRead hp hh
  have hkept := buffersKept_hostObRead addr s rest
  constructor
  · intro hin
    rw [hostObRead_of_le _ hin] at hstep hkept
    exact ⟨_, hstep, fun b hb => readByte_of_read (sp := .ob) hb, hkept, rfl⟩
  · intro hout
    rw [hostObRead_of_eq _ hout] at hstep hkept
    exact ⟨_, hstep, hkept, rfl⟩

end Sys2Proof.Machine
end

section
/-! The family of spec/20_memory.md: the serial stream of the outbound array. -/

namespace Sys2Proof.Machine

/-! ### The serialiser (R43, R44) -/

@[simp] theorem bitInTime_lsbFirst (j : Nat) : bitInTime .lsbFirst j = j := rfl

@[simp] theorem length_ser (o : BitOrder) (bytes : List Byte) :
    (ser o bytes).length = 8 * bytes.length := by simp [ser]

/-- Inside the array, bit `t` of the stream is the one at the place `t mod 8` in time of byte `t div 8`. -/
theorem getElem?_ser (o : BitOrder) {bytes : List Byte} {t : Nat} {b : Byte}
    (hb : bytes[t / 8]? = some b) :
    (ser o bytes)[t]? = some (b.getLsbD (bitInTime o (t % 8))) := by
  obtain ⟨hk, -⟩ := List.getElem?_eq_some_iff.mp hb
  have ht : t < 8 * bytes.length := by omega
  simp [ser, streamBit, ht, List.getD_eq_getElem?_getD, hb]

/-- R44: the stream of the requested exchange has the bits that `BITCNT` counts and no more. -/
theorem length_so (s : State) : s.so.length = s.bitcnt.toNat := by
  rw [State.so, length_ser, length_txBytes, toNat_bitcnt, Nat.mul_comm]

/-- R44 with the order `LINK_BIT_ORDER` = `lsb_first` (R43). -/
theorem getElem?_so (s : State) {t : Nat} (ht : t < s.bitcnt.toNat) :
    s.so[t]? = some ((s.readByte .tx (t / 8)).getLsbD (t % 8)) := by
  rw [toNat_bitcnt] at ht
  have hk : t / 8 < s.len.toNat := by omega
  rw [State.so, Config.linkBitOrder, getElem?_ser _ (getElem?_txBytes s (t / 8) hk), bitInTime_lsbFirst]

/-- Settles O42: byte `t div 8` of the stream's array is the one that `TX` reads there. -/
theorem serialiserBits : Obligations.SerialiserBits :=
  fun s => ⟨length_so s, fun _ => getElem?_so s⟩

end Sys2Proof.Machine
end

section
/-! The family of spec/30_encoding.md: which command words are illegal, what an accepted one does, and the
inverted polarity of `SETCS`. -/

namespace Sys2Proof.Machine

/-! ### Illegal command words (R71, R75, R77) -/

section

variable (w : CommandWord)

theorem toNat_opField : (w.extractLsb' 13 3).toNat = w.toNat / 8192 := by
  rw [BitVec.extractLsb'_toNat, Nat.shiftRight_eq_div_pow]
  omega

theorem toNat_argField : (w.extractLsb' 0 13).toNat = w.toNat % 8192 := by
  rw [BitVec.extractLsb'_toNat, Nat.shiftRight_zero]

theorem opField_eq_iff (op : BitVec 3) : w.extractLsb' 13 3 = op ↔ w.toNat / 8192 = op.toNat := by
  rw [← BitVec.toNat_inj, toNat_opField]

/-- R75: the argument of a `SETCS` is 0 but for its lowest bit. -/
theorem setcsArgument_eq_zero_iff :
    w.extractLsb' 0 13 >>> 1 = 0#13 ↔ w.toNat % 8192 / 2 = 0 := by
  rw [← BitVec.toNat_inj, BitVec.toNat_ushiftRight, toNat_argField, Nat.shiftRight_eq_div_pow]
  rfl

/-- R77, field by field: a reserved `op`, or a `SETCS` whose argument is neither 0 nor 1. -/
theorem decode_command_error_iff :
    (∃ e, decode (.c w) = .error e) ↔
      (w.toNat / 8192 = 1 ∧ w.toNat % 8192 / 2 ≠ 0) ∨ (w.toNat / 8192 ≠ 1 ∧ w.toNat / 8192 ≠ 2) := by
  have hone : w.extractLsb' 13 3 = 1#3 ↔ w.toNat / 8192 = 1 := opField_eq_iff w 1#3
  have htwo : w.extractLsb' 13 3 = 2#3 ↔ w.toNat / 8192 = 2 := opField_eq_iff w 2#3
  simp only [decode, decodeCommand, hone, htwo, setcsArgument_eq_zero_iff]
  by_cases h1 : w.toNat / 8192 = 1
  · by_cases harg : w.toNat % 8192 / 2 = 0 <;> simp [h1, harg]
  · by_cases h2 : w.toNat / 8192 = 2 <;> simp [h1, h2]

/-- R77, as ranges of the word. -/
theorem decode_command_error_iff_range :
    (∃ e, decode (.c w) = .error e) ↔
      (w.toNat ≤ 0x1FFF ∨ (0x2002 ≤ w.toNat ∧ w.toNat ≤ 0x3FFF) ∨ 0x6000 ≤ w.toNat) := by
  rw [decode_command_error_iff]
  omega

end

/-! ### An accepted illegal word (R77, R171) -/

/-- R171: what an idle core's failure `E_CMD` sets; all else stands as before. -/
theorem illegalCommand_of_idle {s : State} (hp : s.phase = .idle) :
    illegalCommand s = { s with
      done := false, err := true, ecode := .eCmd, fph := .idle,
      lerr := Config.freeLerr (s.draws + 1), draws := s.draws + 2 } := by
  ext1
  case phase => exact hp.symm
  case fph => exact hp
  all_goals rfl

/-- R58, R77: an idle core takes an illegal word off the HOST's list and fails. -/
theorem step_illegalCommand {s : State} {w : CommandWord} {rest : List HostAction} {e : DecodeError}
    (hp : s.phase = .idle) (hh : s.host = .command w :: rest) (hd : decode (.c w) = .error e) :
    step s = .next (illegalCommand (noteCommand w { s with host := rest })) := by
  have hmay : hostMay (.command w) s.phase = true := by simp [hostMay, hp]
  rw [step_eq, stepWith_of_acts _ s _ rest hh hmay, hostFetch, commandFetch, hd]
  rfl

/-- R77: every word that the core puts on the link port decodes. -/
theorem decode_of_requestWord {s : State} {r : RequestWord} (hr : s.requestWord = some r) :
    ∃ i, decode (.l r) = .ok i := by
  cases hi : s.request with
  | none => simp [requestWord_none s hi] at hr
  | some i =>
    obtain ⟨r', hr', hd⟩ := decode_requestWord s i hi
    obtain rfl : r' = r := Option.some.inj (hr'.symm.trans hr)
    exact ⟨i, hd⟩

/-- Settles O4: the ranges are those of the decoder's two fields, an accepted illegal word is
`illegalCommand`, and each request decodes to the operation of its phase. -/
theorem illegalCommandsRejected : Obligations.IllegalCommandsRejected := by
  refine ⟨decode_command_error_iff_range, ?_, fun _ _ => decode_of_requestWord⟩
  rintro w s rest hp hh ⟨e, hd⟩
  have hstep := step_illegalCommand hp hh hd
  rw [illegalCommand_of_idle (s := noteCommand w { s with host := rest }) hp] at hstep
  have hidle : s.request = none := by simp [State.request, hp]
  exact ⟨_, hstep, hp, rfl, rfl, rfl, rfl, hidle,
    buffersKept_of_store fun sp => by cases sp <;> rfl, rfl⟩

/-! ### The polarity of the chip select (R78) -/

/-- R100: the acceptance of `SETCS` by an idle core. -/
theorem exec_setcs_of_idle {s : State} (en : Bool) (hp : s.phase = .idle) :
    exec (.setcs en) s = .next (beginSetcs en s) := if_pos hp

theorem request_of_csOnly {s : State} (hp : s.phase = .csOnly) :
    s.request = some (controlVerb s.csen).instr := by
  simp [State.request, hp]

theorem controlVerb_instr (en : Bool) :
    (controlVerb en).instr = if en then .ctlclr else .ctlset := by
  cases en <;> rfl

/-- R76: the words of the two control-line requests. -/
theorem linkWord_controlVerb (en : Bool) :
    linkWord (controlVerb en).instr = some (if en then 0x00000#18 else 0x10000#18) := by
  cases en <;> rfl

theorem requestWord_of_csOnly {s : State} (hp : s.phase = .csOnly) :
    s.requestWord = some (if s.csen then 0x00000#18 else 0x10000#18) := by
  rw [State.requestWord, request_of_csOnly hp, Option.bind_some, linkWord_controlVerb]

/-- Settles O10: `SETCS en` leads to phase `CSONLY` with `CSEN` = `en`, whose request is inverted. -/
theorem polarityInverted : Obligations.PolarityInverted := by
  intro en s hp
  refine ⟨beginSetcs en s, exec_setcs_of_idle en hp, ?_, ?_⟩
  · rw [request_of_csOnly (beginSetcs_phase en s), beginSetcs_csen, controlVerb_instr]
  · rw [requestWord_of_csOnly (beginSetcs_phase en s), beginSetcs_csen]

end Sys2Proof.Machine
end

section
/-! The family of spec/40_bitrev_codec.md: the bit reversal of a byte, its laws, and `REV8`. -/

namespace Sys2Proof.Machine

/-! ### The three stages and the reversal (R90, R91) -/

section

variable (b : Byte) {i : Nat}

/-- One stage of R91: two masks and two shifts, bit by bit. -/
theorem getLsbD_swapStage (hi lo : Byte) (k : Nat) (h : i < 8) :
    (((b &&& hi) >>> k) ||| ((b &&& lo) <<< k)).getLsbD i =
      ((b.getLsbD (k + i) && hi.getLsbD (k + i)) ||
        (!decide (i < k) && (b.getLsbD (i - k) && lo.getLsbD (i - k)))) := by
  simp only [BitVec.getLsbD_or, BitVec.getLsbD_ushiftRight, BitVec.getLsbD_shiftLeft,
    BitVec.getLsbD_and, h, decide_true, Bool.true_and]

theorem getLsbD_swapPairs (h : i < 8) : (swapPairs b).getLsbD i = b.getLsbD (i ^^^ 1) := by
  rw [swapPairs, getLsbD_swapStage b _ _ _ h]
  interval_cases i <;> simp

theorem getLsbD_swapNibblePairs (h : i < 8) :
    (swapNibblePairs b).getLsbD i = b.getLsbD (i ^^^ 2) := by
  rw [swapNibblePairs, getLsbD_swapStage b _ _ _ h]
  interval_cases i <;> simp

theorem getLsbD_swapNibbles (h : i < 8) : (swapNibbles b).getLsbD i = b.getLsbD (i ^^^ 4) := by
  rw [swapNibbles, getLsbD_swapStage b _ _ _ h]
  interval_cases i <;> simp

/-- R91: the three exclusive-ors of the bit index make one with 7. -/
theorem xor_four_two_one (h : i < 8) : i ^^^ 4 ^^^ 2 ^^^ 1 = 7 - i := by
  interval_cases i <;> rfl

/-- R90: the reversal, as what the stages of R91 make of a bit index. -/
theorem getLsbD_rev8 (h : i < 8) : (rev8 b).getLsbD i = b.getLsbD (7 - i) := by
  have h4 : i ^^^ 4 < 2 ^ 3 := Nat.xor_lt_two_pow h (by decide)
  have h2 : i ^^^ 4 ^^^ 2 < 2 ^ 3 := Nat.xor_lt_two_pow h4 (by decide)
  rw [rev8, getLsbD_swapNibbles _ h, getLsbD_swapNibblePairs _ h4, getLsbD_swapPairs _ h2,
    xor_four_two_one h]

end

/-- A byte is the reversal of another where its bits are the other's in the reversed order. -/
theorem rev8_eq_of_getLsbD {a b : Byte} (h : ∀ i, i < 8 → b.getLsbD (7 - i) = a.getLsbD i) :
    rev8 b = a :=
  BitVec.eq_of_getLsbD_eq fun i hi => (getLsbD_rev8 b hi).trans (h i hi)

/-! ### Sums over the bits of a byte (R90, R93 (4)) -/

/-- The sum over the eight bit indexes does not depend on their order. -/
theorem sum_bitIndexes_reflect (f : Nat → Nat) :
    ((List.range 8).map fun i => f (7 - i)).sum = ((List.range 8).map f).sum := by
  have hrev : (List.range 8).map (fun i => 7 - i) = (List.range 8).reverse := rfl
  calc ((List.range 8).map fun i => f (7 - i)).sum
      = (((List.range 8).map fun i => 7 - i).map f).sum := by rw [List.map_map]; rfl
    _ = ((List.range 8).map f).sum := by rw [hrev, List.map_reverse, List.sum_reverse]

/-- A sum over the bits of `rev8 b` is one over the bits of `b`, taken in the reversed order. -/
theorem sum_bits_rev8 (b : Byte) (f : Nat → Bool → Nat) :
    ((List.range 8).map fun i => f i ((rev8 b).getLsbD i)).sum =
      ((List.range 8).map fun i => f (7 - i) (b.getLsbD i)).sum := by
  rw [← sum_bitIndexes_reflect]
  congr 1
  refine List.map_congr_left fun i hi => ?_
  replace hi : i < 8 := List.mem_range.mp hi
  rw [getLsbD_rev8 b (by omega), Nat.sub_sub_self (Nat.le_of_lt_succ hi)]

/-- The lowest `n` bits of a word, as a sum of powers of 2. -/
theorem toNat_mod_two_pow_eq_sum {w : Nat} (x : BitVec w) (n : Nat) :
    x.toNat % 2 ^ n = ((List.range n).map fun i => (x.getLsbD i).toNat * 2 ^ i).sum := by
  induction n with
  | zero => simp [Nat.mod_one]
  | succ n ih =>
    rw [Nat.mod_pow_succ, ih, List.range_succ, List.map_append, List.sum_append,
      ← Nat.toNat_testBit, BitVec.testBit_toNat, Nat.mul_comm]
    simp

theorem toNat_byte_eq_sum (b : Byte) :
    b.toNat = ((List.range 8).map fun i => (b.getLsbD i).toNat * 2 ^ i).sum := by
  rw [← toNat_mod_two_pow_eq_sum b 8, Nat.mod_eq_of_lt b.isLt]

/-- Settles O6: bit by bit by the stages of R91, and the sum of R90 by reading it from the other end. -/
theorem rev8ReversesBits : Obligations.Rev8ReversesBits := by
  refine fun b => ⟨fun i hi => getLsbD_rev8 b (by omega), ?_⟩
  rw [toNat_byte_eq_sum (rev8 b)]
  exact sum_bits_rev8 b fun i x => x.toNat * 2 ^ i

/-! ### The laws of `rev8` (R93) -/

/-- R93 (1). -/
theorem rev8_rev8 (b : Byte) : rev8 (rev8 b) = b := by
  refine rev8_eq_of_getLsbD fun i hi => ?_
  rw [getLsbD_rev8 b (by omega), Nat.sub_sub_self (Nat.le_of_lt_succ hi)]

/-- R93 (2): an involution is a bijection. -/
theorem rev8_bijective : Function.Bijective rev8 := Function.Involutive.bijective rev8_rev8

section

variable (a b : Byte)

theorem rev8_and : rev8 (a &&& b) = rev8 a &&& rev8 b :=
  rev8_eq_of_getLsbD fun i hi => by simp only [BitVec.getLsbD_and, getLsbD_rev8 _ hi]

theorem rev8_or : rev8 (a ||| b) = rev8 a ||| rev8 b :=
  rev8_eq_of_getLsbD fun i hi => by simp only [BitVec.getLsbD_or, getLsbD_rev8 _ hi]

theorem rev8_xor : rev8 (a ^^^ b) = rev8 a ^^^ rev8 b :=
  rev8_eq_of_getLsbD fun i hi => by simp only [BitVec.getLsbD_xor, getLsbD_rev8 _ hi]

theorem rev8_not : rev8 (~~~b) = ~~~(rev8 b) :=
  rev8_eq_of_getLsbD fun i hi => by
    simp only [BitVec.getLsbD_not, getLsbD_rev8 _ hi, hi, show 7 - i < 8 by omega]

/-- A shift to the left becomes one to the right. -/
theorem rev8_shiftLeft (k : Nat) : rev8 (b <<< k) = rev8 b >>> k := by
  refine rev8_eq_of_getLsbD fun i hi => ?_
  rw [BitVec.getLsbD_shiftLeft, BitVec.getLsbD_ushiftRight]
  by_cases hk : k + i < 8
  · have hidx : 7 - i - k = 7 - (k + i) := by omega
    have hout : ¬ 7 - i < k := by omega
    simp [getLsbD_rev8 b hk, hidx, hout, show 7 - i < 8 by omega]
  · have hout : 7 - i < k := by omega
    simp [BitVec.getLsbD_of_ge _ _ (Nat.le_of_not_lt hk), hout]

/-- R93 (4): the number of 1 bits is a sum over the bits that does not look at their places. -/
theorem onesCount_rev8 : onesCount (rev8 b) = onesCount b := sum_bits_rev8 b fun _ x => x.toNat

end

/-! ### The fixed points (R93 (3)) -/

/-- The palindrome whose high nibble is `n`. -/
def palindrome (n : Nat) : Byte := (BitVec.ofNat 8 n <<< 4) ||| rev8 (BitVec.ofNat 8 n <<< 4)

theorem rev8_palindrome (n : Nat) : rev8 (palindrome n) = palindrome n := by
  rw [palindrome, rev8_or, rev8_rev8, BitVec.or_comm]

theorem highNibble_shiftLeft (b : Byte) :
    BitVec.ofNat 8 (b.toNat / 16) <<< 4 = b &&& 0xF0#8 := by
  have hshift : BitVec.ofNat 8 (b.toNat / 16) = b >>> 4 := by bv_omega
  refine BitVec.eq_of_getLsbD_eq fun i hi => ?_
  rw [hshift, BitVec.getLsbD_and, BitVec.getLsbD_shiftLeft, BitVec.getLsbD_ushiftRight]
  interval_cases i <;> simp

/-- A fixed point is the palindrome of its high nibble. -/
theorem palindrome_of_rev8_eq {b : Byte} (h : rev8 b = b) : palindrome (b.toNat / 16) = b := by
  have hlow : rev8 (b &&& 0xF0#8) = b &&& 0x0F#8 := by rw [rev8_and, h]; rfl
  have hall : 0xF0#8 ||| 0x0F#8 = BitVec.allOnes 8 := rfl
  rw [palindrome, highNibble_shiftLeft, hlow, ← BitVec.and_or_distrib_left, hall,
    BitVec.and_allOnes]

theorem rev8_eq_self_iff (b : Byte) : rev8 b = b ↔ b ∈ (List.range 16).map palindrome := by
  rw [List.mem_map]
  constructor
  · intro h
    have hn : b.toNat / 16 < 16 := by have := b.isLt; omega
    exact ⟨_, List.mem_range.mpr hn, palindrome_of_rev8_eq h⟩
  · rintro ⟨n, -, rfl⟩
    exact rev8_palindrome n

/-- The 16 bytes that R93 (3) lists. -/
theorem map_palindrome_range : (List.range 16).map palindrome =
    [0x00#8, 0x18, 0x24, 0x3C, 0x42, 0x5A, 0x66, 0x7E, 0x81, 0x99,
      0xA5, 0xBD, 0xC3, 0xDB, 0xE7, 0xFF] := by
  decide

/-! ### The printed table (R93 (6)) -/

/-- The rows of the table of spec/95_test_vectors.md section 2.1, one for each high nibble `h`. -/
theorem reversalTable_row : ∀ h < 16, (reversalTable.drop (16 * h)).take 16 =
    (List.range 16).map fun l => rev8 (BitVec.ofNat 8 (16 * h + l)) := by
  decide

/-- A byte's entry stands in the row of its high nibble, at its low nibble. -/
theorem getElem?_reversalTable (b : Byte) : reversalTable[b.toNat]? = some (rev8 b) := by
  have hhigh : b.toNat / 16 < 16 := by have := b.isLt; omega
  have hlow : b.toNat % 16 < 16 := Nat.mod_lt _ (by decide)
  calc reversalTable[b.toNat]?
      = ((reversalTable.drop (16 * (b.toNat / 16))).take 16)[b.toNat % 16]? := by
        rw [List.getElem?_take_of_lt hlow, List.getElem?_drop, Nat.div_add_mod]
    _ = some (rev8 (BitVec.ofNat 8 (16 * (b.toNat / 16) + b.toNat % 16))) := by
        rw [reversalTable_row _ hhigh, List.getElem?_map, List.getElem?_range hlow, Option.map_some]
    _ = some (rev8 b) := by rw [Nat.div_add_mod, BitVec.ofNat_toNat, BitVec.setWidth_eq]

/-- Settles O7: each law of R93 by its own lemma. -/
theorem rev8Laws : Obligations.Rev8Laws := by
  refine ⟨rev8_rev8, rev8_bijective, ?fixed, fun a b => ⟨rev8_and a b, rev8_or a b, rev8_xor a b⟩,
    fun b => ⟨rev8_not b, onesCount_rev8 b⟩, fun i _ => rev8_shiftLeft 0x01#8 i,
    getElem?_reversalTable⟩
  case fixed =>
    intro b
    rw [rev8_eq_self_iff, map_palindrome_range]

/-! ### `REV8` (R92) -/

theorem decode_codec (b : Byte) : decode (.p b) = .ok (.rev8 b) := rfl

theorem exec_rev8 (b : Byte) (s : State) : exec (.rev8 b) s = .next { s with revIn := b } := rfl

/-- R28, R92: the codec port is open in every phase. -/
theorem step_codec {s : State} {b : Byte} {rest : List HostAction} (hh : s.host = .codec b :: rest) :
    step s = .next { s with revIn := b, host := rest } := by
  rw [step_eq, stepWith_of_acts _ s _ rest hh rfl, hostFetch, codecFetch, decode_codec]
  rfl

/-- The codec's input and the HOST's list are in no buffer. -/
theorem buffersKept_revIn (b : Byte) (s : State) (acts : List HostAction) :
    BuffersKept s { s with revIn := b, host := acts } :=
  buffersKept_of_store fun sp => by cases sp <;> rfl

/-- Settles O8: `REV8 b` writes the level on `rev_in` and nothing else; the corner cases and the stages of the
worked example are closed values. -/
theorem rev8Instruction : Obligations.Rev8Instruction := by
  refine ⟨decode_codec, fun b s => ⟨_, exec_rev8 b s, rfl, buffersKept_revIn b s s.host, rfl⟩,
    fun b s rest hh => ⟨_, step_codec hh, rfl, buffersKept_revIn b s rest, rfl⟩, ?_⟩
  decide

end Sys2Proof.Machine
end

section
/-! The family of spec/41_chip_select.md: what the answers to `CTLCLR` and `CTLSET` leave, and which steps change
`CSS`. The two requests differ in their `ControlVerb` only, so each fact is proved for both at once. -/

namespace Sys2Proof.Machine

/-! ### The phases that issue a control-line request (R102, R103) -/

section

variable (s : State)

theorem request_verb_iff (v : ControlVerb) :
    s.request = some v.instr ↔
      (v = .clear ∧ s.phase = .assert) ∨ (v = .set ∧ s.phase = .deassert) ∨
        (s.phase = .csOnly ∧ controlVerb s.csen = v) := by
  refine ⟨request_control s v, ?_⟩
  rintro (⟨rfl, hp⟩ | ⟨rfl, hp⟩ | ⟨hp, rfl⟩)
  · simp [State.request, hp, ControlVerb.instr]
  · simp [State.request, hp, ControlVerb.instr]
  · exact request_of_csOnly hp

theorem request_ctlclr_iff :
    s.request = some .ctlclr ↔ s.phase = .assert ∨ (s.phase = .csOnly ∧ s.csen = true) :=
  (request_verb_iff s .clear).trans (by simp [controlVerb])

theorem request_ctlset_iff :
    s.request = some .ctlset ↔ s.phase = .deassert ∨ (s.phase = .csOnly ∧ s.csen = false) :=
  (request_verb_iff s .set).trans (by simp [controlVerb])

end

theorem request_of_idle {s : State} (hp : s.phase = .idle) : s.request = none := by
  simp [State.request, hp]

/-- R180: after a failure the core is idle and requests nothing. -/
theorem ControlFailed.request_eq_none {v : ControlVerb} {e : LinkError} {rest : List LinkInput}
    {s t : State} (h : ControlFailed v e rest s t) : t.request = none := by
  obtain ⟨-, -, -, -, -, -, -, -, -, hphase, -⟩ := h
  exact request_of_idle hphase

/-! ### What an answer leaves (R102, R103, R108, R134) -/

section

variable {v : ControlVerb} {s : State} (hr : s.request = some v.instr)
include hr

/-- The answer `ok` moves the line, and the phase that issued the request decides `PHASE` and `DONE` alone. -/
theorem controlOk_of_request :
    ∃ p d, controlOk v s = { lineMoved v s with phase := p, done := d } ∧
      (s.phase = .assert → p = .revOut ∧ d = s.done) ∧
      (s.phase = .deassert → p = .revIn ∧ d = s.done) ∧
      (s.phase = .csOnly → p = .idle ∧ d = true) := by
  obtain ⟨-, hp⟩ | ⟨-, hp⟩ | ⟨hp, -⟩ := request_control s v hr
  · exact ⟨.revOut, s.done, by simp only [controlOk, hp]; rfl, by simp [hp]⟩
  · exact ⟨.revIn, s.done, by simp only [controlOk, hp]; rfl, by simp [hp]⟩
  · exact ⟨.idle, true, by simp only [controlOk, hp]; rfl, by simp [hp]⟩

/-- The answer `fail(e)` outside a `SETCS` is the failure of a `TRANSACT`. -/
theorem controlFail_of_ne_csOnly (e : LinkError) (hp : s.phase ≠ .csOnly) :
    controlFail e s = failTransact (controlCode s.phase) e (lineLost s) := by
  obtain ⟨-, ha⟩ | ⟨-, hd⟩ | ⟨hc, -⟩ := request_control s v hr
  · simp only [controlFail, ha, controlCode]
  · simp only [controlFail, hd, controlCode]
  · exact absurd hc hp

end

theorem controlFail_of_csOnly {s : State} (e : LinkError) (hp : s.phase = .csOnly) :
    controlFail e s = raiseErr false (controlCode s.phase) e (lineLost s) := by
  simp only [controlFail, hp, controlCode]

/-- R108: the levels after the two requests differ. -/
theorem lineAfter_set_ne : lineAfter .set ≠ Config.ctlClearLevel := by decide

section

variable {v : ControlVerb} {s : State} {rest : List LinkInput} (hr : s.request = some v.instr)
include hr

theorem controlSucceeded_controlOk :
    ControlSucceeded v rest s (controlOk v (answered (controlEvent v (.ok [])) rest s)) := by
  obtain ⟨p, d, heq, hassert, hdeassert, hcsOnly⟩ :=
    controlOk_of_request (s := answered (controlEvent v (.ok [])) rest s) hr
  rw [heq]
  refine ⟨?css, ?line, rfl, rfl, rfl, hassert, hdeassert, hcsOnly,
    buffersKept_of_store fun sp => by cases sp <;> rfl, rfl⟩
  case css => cases v <;> rfl
  case line =>
    cases v with
    | clear => exact rfl
    | set => exact lineAfter_set_ne

theorem controlFailed_controlFail (e : LinkError) :
    ControlFailed v e rest s (controlFail e (answered (controlEvent v (.fail e)) rest s)) := by
  by_cases hp : s.phase = .csOnly
  · rw [controlFail_of_csOnly (s := answered (controlEvent v (.fail e)) rest s) e hp]
    exact ⟨rfl, rfl, rfl, rfl, rfl, rfl, rfl, rfl, rfl, rfl, fun _ => ⟨rfl, rfl, fun _ => rfl⟩,
      fun hne => absurd hp hne, fun _ => rfl, fun _ => rfl, rfl⟩
  · rw [controlFail_of_ne_csOnly (s := answered (controlEvent v (.fail e)) rest s) hr e hp]
    exact ⟨rfl, rfl, rfl, rfl, rfl, rfl, rfl, rfl, rfl, rfl, fun hc => absurd hc hp,
      fun _ => ⟨rfl, rfl, fun _ => rfl⟩, fun _ => rfl, fun _ => rfl, rfl⟩

/-- R134: with no answer the core waits. -/
theorem exec_verb_none (hn : nextAnswer s.link = none) :
    ∃ t, exec v.instr s = .next t ∧ t.waiting = true ∧
      t = { s with waiting := t.waiting, link := t.link } := by
  refine ⟨awaitLink s, ?_, rfl, rfl⟩
  rw [exec_verb]
  simp [controlRequest, hr, hn]

theorem exec_verb_ok {d : List Byte} (hn : nextAnswer s.link = some (.ok d, rest)) :
    ∃ t, exec v.instr s = .next t ∧ ControlSucceeded v rest s t :=
  ⟨_, (exec_verb v s).trans (controlRequest_ok v s d rest hr hn), controlSucceeded_controlOk hr⟩

theorem exec_verb_fail {e : LinkError} (hn : nextAnswer s.link = some (.fail e, rest)) :
    ∃ t, exec v.instr s = .next t ∧ ControlFailed v e rest s t ∧ t.request = none :=
  have hfailed := controlFailed_controlFail hr e
  ⟨_, (exec_verb v s).trans (controlRequest_fail v s e rest hr hn), hfailed,
    hfailed.request_eq_none⟩

end

/-- Settles O14: the facts about a control-line request, for the request that clears the line. -/
theorem ctlclrAnswered : Obligations.CtlclrAnswered :=
  ⟨rfl, request_ctlclr_iff, fun _ _ hr =>
    ⟨exec_verb_none (v := .clear) hr, fun _ => exec_verb_ok (v := .clear) hr,
      fun _ => exec_verb_fail (v := .clear) hr⟩⟩

/-- Settles O15: the facts about a control-line request, for the request that sets the line. -/
theorem ctlsetAnswered : Obligations.CtlsetAnswered :=
  ⟨rfl, request_ctlset_iff, fun _ _ hr =>
    ⟨exec_verb_none (v := .set) hr, fun _ => exec_verb_ok (v := .set) hr,
      fun _ => exec_verb_fail (v := .set) hr⟩⟩

/-! ### Which steps change `CSS` (R104) -/

/-- A control-line request stands on the link port and the LINK has an answer to a request. -/
def ControlAnswered (s : State) : Prop :=
  (s.request = some .ctlclr ∨ s.request = some .ctlset) ∧ ∃ a rest, nextAnswer s.link = some (a, rest)

theorem controlAnswered_of_verb {s : State} {v : ControlVerb} {a : LinkAnswer} {rest : List LinkInput}
    (hr : s.request = some v.instr) (hn : nextAnswer s.link = some (a, rest)) : ControlAnswered s := by
  refine ⟨?_, a, rest, hn⟩
  cases v with
  | clear => exact .inl hr
  | set => exact .inr hr

/-- R104: of what the CORE and the LINK do, an answer to a control-line request alone changes `CSS`. -/
theorem CoreCase.css_eq_or {s t : State} (h : CoreCase s t) : t.css = s.css ∨ ControlAnswered s := by
  cases h with
  | idle => exact .inl rfl
  | revOut => exact .inl (by rw [revOutPhase_eq])
  | revIn => exact .inl (by rw [revInPhase_eq])
  | wait => exact .inl rfl
  | controlOk v d rest hr hn => exact .inr (controlAnswered_of_verb hr hn)
  | controlFail v e rest hr hn => exact .inr (controlAnswered_of_verb hr hn)
  | exchangeOk => exact .inl rfl
  | exchangeFail => exact .inl rfl

theorem hostObRead_css (addr : Length) (s : State) : (hostObRead addr s).css = s.css := by
  unfold hostObRead
  split <;> rfl

/-- R104: of what the HOST does, reset alone changes `CSS`; a step that it leaves to the core may. -/
theorem HostCase.css_eq_or {cfg : Parameters} {s t : State} {a : HostAction} (h : HostCase cfg s a t) :
    t.css = s.css ∨ ControlAnswered s ∨ (t.css = .unknown ∧ a = .reset) := by
  cases h with
  | obRead addr => exact .inl (hostObRead_css addr s)
  | reset => exact .inr (.inr ⟨rfl, rfl⟩)
  | yield t hcore => exact hcore.css_eq_or.imp_right .inl
  | session a t _ _ heq => exact .inl (by rw [heq])
  | obWrite | ibRead | ibReadNothing | readStatus | codec | illegal | setcs | transact => exact .inl rfl

theorem step_css_ne {s t : State} (h : step s = .next t) (hne : t.css ≠ s.css) :
    ControlAnswered s ∨ (t.css = .unknown ∧ ∃ rest, s.host = .reset :: rest) := by
  obtain ⟨a, rest, hh, -, hcase⟩ | ⟨-, hcase⟩ := stepWith_cases h
  · obtain heq | hans | ⟨hcss, rfl⟩ := hcase.css_eq_or
    · exact absurd heq hne
    · exact .inl hans
    · exact .inr ⟨hcss, rest, hh⟩
  · exact .inl (hcase.css_eq_or.resolve_left hne)

/-- R195: the reset input is open in every phase. -/
theorem step_reset {s : State} {rest : List HostAction} (hh : s.host = .reset :: rest) :
    step s = .next (coreReset (noteReset { s with host := rest })) := by
  rw [step_eq, stepWith_of_acts _ s _ rest hh rfl]
  rfl

section

variable {v : ControlVerb} {s : State} {rest : List LinkInput} (hr : s.request = some v.instr)
include hr

theorem exec_verb_ok_css {d : List Byte} (hn : nextAnswer s.link = some (.ok d, rest)) :
    ∃ t, exec v.instr s = .next t ∧ t.css = cssAfter v := by
  obtain ⟨t, hexec, hcss, -⟩ := exec_verb_ok hr hn
  exact ⟨t, hexec, hcss.trans (by cases v <;> rfl)⟩

theorem exec_verb_fail_css {e : LinkError} (hn : nextAnswer s.link = some (.fail e, rest)) :
    ∃ t, exec v.instr s = .next t ∧ t.css = .unknown := by
  obtain ⟨t, hexec, ⟨hcss, -⟩, -⟩ := exec_verb_fail hr hn
  exact ⟨t, hexec, hcss⟩

end

/-- Settles O16: the columns of R104 are the answers of O14 and O15, and of all that a step can do only they and
reset write `CSS`. -/
theorem cssTransitions : Obligations.CssTransitions :=
  ⟨fun _ _ _ _ =>
    ⟨fun hr hn => exec_verb_ok_css (v := .clear) hr hn,
      fun hr hn => exec_verb_fail_css (v := .clear) hr hn,
      fun hr hn => exec_verb_ok_css (v := .set) hr hn,
      fun hr hn => exec_verb_fail_css (v := .set) hr hn⟩,
    fun _ _ => step_css_ne,
    fun _ _ hh => ⟨_, step_reset hh, rfl⟩⟩

end Sys2Proof.Machine
end


section
/-! The family of spec/42_transaction_framer.md: what each phase of a `TRANSACT` does with either answer, that no
step of it writes `OB`, and whole transactions, in two halves that meet in phase `EXCHANGE`. -/

namespace Sys2Proof.Machine

/-! ### The phases that issue no request (R118, R122) -/

section

variable (s : State)

@[simp] theorem revOutPhase_ob : (revOutPhase s).ob = s.ob := by rw [revOutPhase_eq]
@[simp] theorem revOutPhase_ib : (revOutPhase s).ib = s.ib := by rw [revOutPhase_eq]
@[simp] theorem revOutPhase_len : (revOutPhase s).len = s.len := by rw [revOutPhase_eq]
@[simp] theorem revOutPhase_phase : (revOutPhase s).phase = .exchange := rfl
@[simp] theorem revOutPhase_css : (revOutPhase s).css = s.css := by rw [revOutPhase_eq]
@[simp] theorem revOutPhase_err : (revOutPhase s).err = s.err := by rw [revOutPhase_eq]
@[simp] theorem revOutPhase_ecode : (revOutPhase s).ecode = s.ecode := by rw [revOutPhase_eq]
@[simp] theorem revOutPhase_fph : (revOutPhase s).fph = s.fph := by rw [revOutPhase_eq]
@[simp] theorem revOutPhase_linkLog : (revOutPhase s).linkLog = s.linkLog := by rw [revOutPhase_eq]
@[simp] theorem revOutPhase_host : (revOutPhase s).host = s.host := by rw [revOutPhase_eq]
@[simp] theorem revOutPhase_link : (revOutPhase s).link = s.link := by rw [revOutPhase_eq]

@[simp] theorem revInPhase_ob : (revInPhase s).ob = s.ob := by rw [revInPhase_eq]
@[simp] theorem revInPhase_tx : (revInPhase s).tx = s.tx := by rw [revInPhase_eq]
@[simp] theorem revInPhase_len : (revInPhase s).len = s.len := by rw [revInPhase_eq]
@[simp] theorem revInPhase_ilen : (revInPhase s).ilen = s.len := rfl
@[simp] theorem revInPhase_css : (revInPhase s).css = s.css := by rw [revInPhase_eq]
@[simp] theorem revInPhase_phase : (revInPhase s).phase = .idle := rfl
@[simp] theorem revInPhase_done : (revInPhase s).done = true := rfl
@[simp] theorem revInPhase_err : (revInPhase s).err = s.err := by rw [revInPhase_eq]
@[simp] theorem revInPhase_ibvalid : (revInPhase s).ibvalid = true := rfl
@[simp] theorem revInPhase_ecode : (revInPhase s).ecode = s.ecode := by rw [revInPhase_eq]
@[simp] theorem revInPhase_fph : (revInPhase s).fph = s.fph := by rw [revInPhase_eq]
@[simp] theorem revInPhase_linkLog : (revInPhase s).linkLog = s.linkLog := by rw [revInPhase_eq]
@[simp] theorem revInPhase_host : (revInPhase s).host = s.host := by rw [revInPhase_eq]
@[simp] theorem revInPhase_link : (revInPhase s).link = s.link := by rw [revInPhase_eq]

end

/-- R118, R122: with the HOST waiting, a phase that issues no request does its own work. -/
theorem step_of_no_request {s : State} (hw : hostWaits s = true) (hr : s.request = none) :
    step s = .next (ownPhase s) := by
  rw [step_eq, stepWith_of_hostWaits _ s hw, coreStep, hr]

theorem step_revIn {s : State} (hw : hostWaits s = true) (hp : s.phase = .revIn) :
    step s = .next (revInPhase s) := by
  rw [step_of_no_request hw (by simp [State.request, hp]), ownPhase, hp]

/-- Settles O27: the step is `revInPhase`'s, which reverses the bytes below `LEN` in place. -/
theorem revInPhaseReversesInbound : Obligations.RevInPhaseReversesInbound := by
  intro s hw hp
  refine ⟨revInPhase s, step_revIn hw hp, ?below, ?above, ?ob, ?tx, rfl, rfl, rfl, rfl,
    revInPhase_eq s⟩
  case below =>
    intro k hk
    rw [revInPhase_ib, if_pos hk]
  case above =>
    intro k hk
    rw [revInPhase_ib, if_neg (Nat.not_lt.mpr hk)]
  case ob => intro k; simp
  case tx => intro k; simp

/-! ### The phases that issue a control-line request (R117, R121) -/

/-- R125: with the HOST waiting, a step runs the request of the phase. -/
theorem step_of_request {s : State} {i : Instr} (hw : hostWaits s = true) (hr : s.request = some i) :
    step s = exec i s := by
  rw [step_eq, stepWith_of_hostWaits _ s hw, coreStep, hr]

theorem requestWord_of_request {s : State} {i : Instr} (hr : s.request = some i) :
    s.requestWord = linkWord i := by
  rw [State.requestWord, hr, Option.bind_some]

/-- Settles O21: the step runs `CTLCLR`, with what O14 says of its answers in a phase that is not `CSONLY`. -/
theorem assertPhase : Obligations.AssertPhase := by
  intro s rest hw hp
  have hr : s.request = some (ControlVerb.instr .clear) := (request_ctlclr_iff s).mpr (.inl hp)
  refine ⟨hr, requestWord_of_request hr, fun d hn => ?ok, fun e hn => ?fail⟩
  case ok =>
    obtain ⟨t, hexec, hcss, -, hlog, -, -, hassert, -⟩ := exec_verb_ok hr hn
    exact ⟨t, (step_of_request hw hr).trans hexec, hcss, (hassert hp).1, hlog⟩
  case fail =>
    obtain ⟨t, hexec, ⟨hcss, hlog, -, -, herr, -, hcode, hfph, -, hphase, -, -, -, htx, -⟩, hnone⟩ :=
      exec_verb_fail hr hn
    rw [hp] at hcode hfph
    exact ⟨t, (step_of_request hw hr).trans hexec, hcss, hphase, hnone, herr, hcode, hfph, htx, hlog⟩

/-- Settles O26: the step runs `CTLSET`, with what O15 says of its answers in a phase that is not `CSONLY`. -/
theorem deassertPhase : Obligations.DeassertPhase := by
  intro s rest hw hp
  have hr : s.request = some (ControlVerb.instr .set) := (request_ctlset_iff s).mpr (.inl hp)
  refine ⟨hr, requestWord_of_request hr, fun d hn => ?ok, fun e hn => ?fail⟩
  case ok =>
    obtain ⟨t, hexec, hcss, -, hlog, -, -, -, hdeassert, -⟩ := exec_verb_ok hr hn
    exact ⟨t, (step_of_request hw hr).trans hexec, hcss, (hdeassert hp).1, hlog⟩
  case fail =>
    obtain ⟨t, hexec, ⟨hcss, hlog, -, -, herr, -, hcode, hfph, -, hphase, -, hdiscard, -⟩, -⟩ :=
      exec_verb_fail hr hn
    obtain ⟨hibvalid, hilen, hib⟩ := hdiscard (by simp [hp])
    rw [hp] at hcode hfph
    exact ⟨t, (step_of_request hw hr).trans hexec, hcss, hphase, herr, hcode, hfph, hibvalid, hilen,
      hib, hlog⟩

/-! ### A failed exchange (R120, R133) -/

section

variable {s : State} {rest : List LinkInput} (hp : s.phase = .exchange)
include hp

theorem request_of_exchange : s.request = some (.xchg s.bitcnt) := by simp [State.request, hp]

theorem exec_xchg_fail {e : LinkError} (hn : nextAnswer s.link = some (.fail e, rest)) :
    exec (.xchg s.bitcnt) s =
      .next (exchangeFail e (answered (.xchg s.txBytes s.bitcnt (.fail e)) rest s)) := by
  show execXchg s.bitcnt s = _
  rw [execXchg, if_pos (request_of_exchange hp), hn]

/-- R133: an answer of another length is a failure with a free error value. -/
theorem exec_xchg_wrongLength {rx : List Byte} (hn : nextAnswer s.link = some (.ok rx, rest))
    (hlen : rx.length ≠ s.len.toNat) :
    exec (.xchg s.bitcnt) s = .next (exchangeFail (Config.freeLerr s.draws)
      (answered (.xchg s.txBytes s.bitcnt (.fail (Config.freeLerr s.draws))) rest s)) := by
  show execXchg s.bitcnt s = _
  rw [execXchg, if_pos (request_of_exchange hp), hn]
  exact if_neg hlen

theorem exchangeFailed_exchangeFail (e : LinkError) :
    ExchangeFailed e rest s
      (exchangeFail e (answered (.xchg s.txBytes s.bitcnt (.fail e)) rest s)) :=
  ⟨rfl, hp, rfl, rfl, rfl, rfl, rfl, rfl, rfl, rfl, rfl, rfl, fun _ => rfl, rfl, rfl, rfl,
    fun _ => rfl, fun _ => rfl, rfl⟩

end

/-- Settles O24: the answer `fail(e)` ends the operation, and `CSS` is not written. -/
theorem exchangeFailureLeavesChipSelect : Obligations.ExchangeFailureLeavesChipSelect :=
  fun _ e _ hp hn => ⟨_, exec_xchg_fail hp hn, exchangeFailed_exchangeFail hp e, id⟩

/-- Settles O25: the failure is that of O24, with a free error value. -/
theorem wrongLengthAnswerFails : Obligations.WrongLengthAnswerFails :=
  fun _ _ _ hp hn hlen =>
    ⟨_, _, exec_xchg_wrongLength hp hn hlen, exchangeFailed_exchangeFail hp _⟩

/-- R123: a `TRANSACT` whose exchange failed has no response. -/
theorem ExchangeFailed.noResponse {e : LinkError} {rest : List LinkInput} {s t : State}
    (h : ExchangeFailed e rest s t) : NoResponse s.len.toNat t := by
  obtain ⟨-, -, -, herr, hdone, hphase, hrequest, -, -, hlen, hibvalid, hilen, hib, -⟩ := h
  exact ⟨herr, hdone, hibvalid, hilen, congrArg BitVec.toNat hlen, hphase, hrequest, hib⟩

/-! ### Which steps write `OB` (R128) -/

theorem controlOk_ob (v : ControlVerb) (s : State) : (controlOk v s).ob = s.ob := by
  unfold controlOk
  split <;> rfl

theorem controlFail_ob (e : LinkError) (s : State) : (controlFail e s).ob = s.ob := by
  unfold controlFail
  split <;> rfl

/-- R128: no phase writes `OB`. -/
theorem CoreCase.ob_eq {s t : State} (h : CoreCase s t) : t.ob = s.ob := by
  cases h with
  | revOut => exact revOutPhase_ob s
  | revIn => exact revInPhase_ob s
  | controlOk v => exact controlOk_ob v _
  | controlFail _ e => exact controlFail_ob e _
  | idle | wait | exchangeOk | exchangeFail => rfl

/-- R26, R195: of what the HOST does, its write port and the reset input alone write `OB`. -/
theorem HostCase.ob_eq_or {cfg : Parameters} {s t : State} {a : HostAction} (h : HostCase cfg s a t) :
    t.ob = s.ob ∨ a = .reset ∨ ∃ addr data, a = .obWrite addr data := by
  cases h with
  | obWrite addr data => exact .inr (.inr ⟨addr, data, rfl⟩)
  | reset => exact .inr (.inl rfl)
  | obRead addr => exact .inl (hostObRead_store addr s .ob)
  | yield t hcore => exact .inl hcore.ob_eq
  | session a t _ _ heq => exact .inl (by rw [heq])
  | ibRead | ibReadNothing | readStatus | codec | illegal | setcs | transact => exact .inl rfl

theorem bufferKept_ob_of_eq {s t : State} (h : t.ob = s.ob) : BufferKept .ob s t :=
  fun k => congrArg (Memory.read · k) h

/-- Settles O33: of all that a step can do, the write port and the reset input alone write `OB`, and the write
port is open in `IDLE` only. -/
theorem outboundPreserved : Obligations.OutboundPreserved := by
  intro s t h
  obtain ⟨a, rest, hh, hmay, hcase⟩ | ⟨-, hcase⟩ := stepWith_cases h
  · obtain heq | rfl | ⟨addr, data, rfl⟩ := hcase.ob_eq_or
    · exact .inl (bufferKept_ob_of_eq heq)
    · exact .inr (.inl ⟨rest, hh⟩)
    · exact .inr (.inr ⟨by simpa [hostMay] using hmay, addr, data, rest, hh⟩)
  · exact .inl (bufferKept_ob_of_eq hcase.ob_eq)

/-! ### A `TRANSACT` up to its exchange (R115, R117, R118) -/

/-- `TRANSACT n` is accepted; `rest` is what the HOST still has to do. -/
def transactAccepted (n : Nat) (rest : List HostAction) (s : State) : State :=
  beginTransact n (noteCommand (BitVec.ofNat 16 (0x4000 + n)) { s with host := rest })

/-- Its `CTLCLR` is answered `ok`; `link` is what the LINK still will do. -/
def transactSelected (n : Nat) (rest : List HostAction) (link : List LinkInput) (s : State) : State :=
  { lineMoved .clear (answered (.ctlClear (.ok [])) link (transactAccepted n rest s)) with
    phase := .revOut }

/-- `TX` is filled, and the exchange is the next request. -/
def transactAtExchange (n : Nat) (rest : List HostAction) (link : List LinkInput) (s : State) : State :=
  revOutPhase (transactSelected n rest link s)

section

variable (n : Nat) (rest : List HostAction) (link : List LinkInput) (s : State)

@[simp] theorem transactAtExchange_phase : (transactAtExchange n rest link s).phase = .exchange := rfl
@[simp] theorem transactAtExchange_ob : (transactAtExchange n rest link s).ob = s.ob := revOutPhase_ob _
@[simp] theorem transactAtExchange_ib : (transactAtExchange n rest link s).ib = [] := revOutPhase_ib _
@[simp] theorem transactAtExchange_css : (transactAtExchange n rest link s).css = .asserted :=
  revOutPhase_css _
@[simp] theorem transactAtExchange_err : (transactAtExchange n rest link s).err = false :=
  revOutPhase_err _
@[simp] theorem transactAtExchange_ecode : (transactAtExchange n rest link s).ecode = .eNone :=
  revOutPhase_ecode _
@[simp] theorem transactAtExchange_fph : (transactAtExchange n rest link s).fph = .idle :=
  revOutPhase_fph _
@[simp] theorem transactAtExchange_host : (transactAtExchange n rest link s).host = rest :=
  revOutPhase_host _
@[simp] theorem transactAtExchange_link : (transactAtExchange n rest link s).link = link :=
  revOutPhase_link _
@[simp] theorem transactAtExchange_linkLog :
    (transactAtExchange n rest link s).linkLog = s.linkLog ++ [.ctlClear (.ok [])] :=
  revOutPhase_linkLog _

section

variable {n} (hn : n ≤ Config.maxLen)
include hn

theorem toNat_transactAtExchange_len : (transactAtExchange n rest link s).len.toNat = n := by
  have hmax : Config.maxLen = 8191 := rfl
  have hlen : (transactAtExchange n rest link s).len = BitVec.ofNat 13 n := revOutPhase_len _
  rw [hlen, BitVec.toNat_ofNat]
  omega

/-- R118: below `n` the reversed bytes of `OB` stand in `TX`, and no specified byte above. -/
theorem transactAtExchange_tx_read (k : Nat) :
    (transactAtExchange n rest link s).tx.read k =
      if k < n then some (rev8 (s.readByte .ob k)) else none := by
  have hlen : (transactSelected n rest link s).len.toNat = n :=
    (congrArg BitVec.toNat (revOutPhase_len _)).symm.trans (toNat_transactAtExchange_len rest link s hn)
  rw [transactAtExchange, revOutPhase_tx, hlen]
  rfl

/-- R130: the array for the LINK. -/
theorem transactAtExchange_txBytes : (transactAtExchange n rest link s).txBytes = outArray s n := by
  rw [State.txBytes, toNat_transactAtExchange_len rest link s hn]
  refine List.map_congr_left fun k hk => readByte_of_read ?_
  rw [store_tx, transactAtExchange_tx_read rest link s hn, if_pos (List.mem_range.mp hk)]

theorem transactAtExchange_bitcnt :
    (transactAtExchange n rest link s).bitcnt = BitVec.ofNat 16 (8 * n) := by
  have hmax : Config.maxLen = 8191 := rfl
  apply BitVec.eq_of_toNat_eq
  rw [toNat_bitcnt, toNat_transactAtExchange_len rest link s hn, BitVec.toNat_ofNat]
  omega

end

end

section

variable (cfg : Parameters) {s : State} {n : Nat} {rest : List HostAction} {d : List Byte}
  {link : List LinkInput} (hstart : StartsTransact s n rest)
  (hassert : nextAnswer s.link = some (.ok d, link)) (m : Nat)
include hstart hassert

/-- R115, R117, R118: the first three steps of a `TRANSACT` whose `CTLCLR` succeeds. -/
theorem runSteps_transactAtExchange :
    runSteps cfg (m + 3) s = runSteps cfg m (transactAtExchange n rest link s) ∧
      phaseTrace cfg (m + 3) s =
        .idle :: .assert :: .revOut :: phaseTrace cfg m (transactAtExchange n rest link s) := by
  have haccept : stepWith cfg s = .next (transactAccepted n rest s) :=
    stepWith_startsTransact cfg s n rest hstart
  obtain ⟨hidle, -, -, hblock⟩ := hstart
  have hselect : stepWith cfg (transactAccepted n rest s) = .next (transactSelected n rest link s) :=
    stepWith_control_ok cfg _ link hblock .clear d rfl hassert
  have hreverse :
      stepWith cfg (transactSelected n rest link s) = .next (transactAtExchange n rest link s) :=
    stepWith_revOut cfg _ hblock rfl
  constructor
  · rw [runSteps_succ _ _ _ _ haccept, runSteps_succ _ _ _ _ hselect, runSteps_succ _ _ _ _ hreverse]
  · rw [phaseTrace_succ _ _ _ _ haccept, phaseTrace_succ _ _ _ _ hselect,
      phaseTrace_succ _ _ _ _ hreverse, hidle]
    rfl

end

/-! ### From the exchange to the success (R119, R121, R122) -/

/-- `XCHG` is answered with the bytes `rx`; `link` is what the LINK still will do. -/
def exchangeReturned (rx : List Byte) (link : List LinkInput) (s : State) : State :=
  exchangeOk rx (answered (.xchg s.txBytes s.bitcnt (.ok rx)) link s)

/-- `CTLSET` is answered `ok` as well. -/
def exchangeDeselected (rx : List Byte) (link : List LinkInput) (s : State) : State :=
  { lineMoved .set (answered (.ctlSet (.ok [])) link (exchangeReturned rx link s)) with
    phase := .revIn }

/-- The returned bytes are reversed in place, and the transaction has succeeded. -/
def exchangeCompleted (rx : List Byte) (link : List LinkInput) (s : State) : State :=
  revInPhase (exchangeDeselected rx link s)

section

variable {rx : List Byte} {s : State} (hlen : rx.length = s.len.toNat) (link : List LinkInput)
  (k : Nat)
include hlen

/-- R119: the bytes that the LINK returned, before they are reversed. -/
theorem exchangeDeselected_ib_read :
    (exchangeDeselected rx link s).ib.read k =
      if k < s.len.toNat then rx[k]? else s.ib.read k := by
  have hrange : 0 + rx.length ≤ Config.maxLen := by
    rw [Nat.zero_add, hlen]
    exact len_le s.len
  have hread := Memory.read_writeAll s.ib 0 rx k hrange
  simp only [Nat.zero_le, true_and, Nat.zero_add, Nat.sub_zero, hlen] at hread
  exact hread

/-- R119, R122: every byte that the LINK returned stands reversed in `IB`. -/
theorem exchangeCompleted_ib_read :
    (exchangeCompleted rx link s).ib.read k =
      if k < s.len.toNat then (rx[k]?).map rev8 else s.ib.read k := by
  have hbefore := exchangeDeselected_ib_read hlen link k
  have hafter : (exchangeCompleted rx link s).ib.read k = if k < s.len.toNat then
      some (rev8 ((exchangeDeselected rx link s).readByte .rx k))
      else (exchangeDeselected rx link s).ib.read k := revInPhase_ib _ k
  rw [hafter]
  by_cases hk : k < s.len.toNat
  · have hget : rx[k]? = some rx[k] := List.getElem?_eq_getElem _
    rw [if_pos hk, hget] at hbefore
    rw [if_pos hk, if_pos hk, hget, readByte_of_read (sp := .rx) hbefore, Option.map_some]
  · rw [if_neg hk] at hbefore
    rw [if_neg hk, if_neg hk, hbefore]

end

section

variable (cfg : Parameters) {s : State} {rx d : List Byte} {link link' : List LinkInput}
  (hblock : blocking s.host = true) (hp : s.phase = .exchange)
  (hexchange : nextAnswer s.link = some (.ok rx, link')) (hlen : rx.length = s.len.toNat)
  (hdeassert : nextAnswer link' = some (.ok d, link))
include hblock hp hexchange hlen hdeassert

/-- R119, R121, R122: the last three steps of a `TRANSACT` that succeeds. -/
theorem runSteps_exchangeCompleted :
    runSteps cfg 3 s = .next (exchangeCompleted rx link s) ∧
      phaseTrace cfg 3 s = [.exchange, .deassert, .revIn, .idle] := by
  have hxchg : stepWith cfg s = .next (exchangeReturned rx link' s) :=
    stepWith_exchange_ok cfg s link' hblock rx hp hexchange hlen
  have hselect :
      stepWith cfg (exchangeReturned rx link' s) = .next (exchangeDeselected rx link s) :=
    stepWith_control_ok cfg (exchangeReturned rx link' s) link hblock .set d rfl hdeassert
  have hreverse :
      stepWith cfg (exchangeDeselected rx link s) = .next (exchangeCompleted rx link s) :=
    stepWith_revIn cfg _ hblock rfl
  constructor
  · rw [runSteps_succ _ _ _ _ hxchg, runSteps_succ _ _ _ _ hselect, runSteps_succ _ _ _ _ hreverse,
      runSteps_zero]
  · rw [phaseTrace_succ _ _ _ _ hxchg, phaseTrace_succ _ _ _ _ hselect,
      phaseTrace_succ _ _ _ _ hreverse, hp]
    rfl

end

/-! ### Whole transactions (R123, R124, R127) -/

/-- Where a `TRANSACT n` that succeeds ends; `link` is what the LINK still will do before the exchange, and
`link'` at the end. -/
def transactCompleted (n : Nat) (rest : List HostAction) (rx : List Byte) (link link' : List LinkInput)
    (s : State) : State :=
  exchangeCompleted rx link' (transactAtExchange n rest link s)

section

variable {n : Nat} (hn : n ≤ Config.maxLen) (rest : List HostAction) {rx : List Byte}
  (link link' : List LinkInput) (s : State)

theorem transactCompleted_ob : (transactCompleted n rest rx link link' s).ob = s.ob :=
  (revInPhase_ob _).trans (transactAtExchange_ob n rest link s)

include hn

theorem transactCompleted_tx_read (k : Nat) :
    (transactCompleted n rest rx link link' s).tx.read k =
      if k < n then some (rev8 (s.readByte .ob k)) else none :=
  (congrArg (Memory.read · k) (revInPhase_tx _)).trans (transactAtExchange_tx_read rest link s hn k)

/-- R126, R130: the three events, in order. -/
theorem transactCompleted_linkLog :
    (transactCompleted n rest rx link link' s).linkLog = s.linkLog ++ [.ctlClear (.ok []),
      .xchg (outArray s n) (BitVec.ofNat 16 (8 * n)) (.ok rx), .ctlSet (.ok [])] := by
  rw [transactCompleted, exchangeCompleted, revInPhase_linkLog]
  simp [exchangeDeselected, exchangeReturned, transactAtExchange_txBytes rest link s hn,
    transactAtExchange_bitcnt rest link s hn]

/-- R115, R123: the response of a `TRANSACT` that succeeds. -/
theorem responded_transactCompleted (hrx : rx.length = n) :
    Responded n rx (transactCompleted n rest rx link link' s) := by
  have hlen := toNat_transactAtExchange_len rest link s hn
  have hib := exchangeCompleted_ib_read (hrx.trans hlen.symm) link'
  simp only [hlen, transactAtExchange_ib, Memory.read_nil] at hib
  refine ⟨rfl, ?err, ?ecode, ?fph, rfl, hlen, ?len, rfl, ?css, fun k hk => ?below, fun k hk => ?above⟩
  case err => exact (revInPhase_err _).trans (transactAtExchange_err n rest link s)
  case ecode => exact (revInPhase_ecode _).trans (transactAtExchange_ecode n rest link s)
  case fph => exact (revInPhase_fph _).trans (transactAtExchange_fph n rest link s)
  case len => exact (congrArg BitVec.toNat (revInPhase_len _)).trans hlen
  case css => exact revInPhase_css _
  case below => exact (hib k).trans (if_pos hk)
  case above => exact (hib k).trans (if_neg (Nat.not_lt.mpr hk))

end

section

variable (cfg : Parameters) {s : State} {n : Nat} {rest : List HostAction} {d : List Byte}
  {link link' : List LinkInput} (hstart : StartsTransact s n rest)
  (hassert : nextAnswer s.link = some (.ok d, link))
include hstart hassert

/-- R123, R126: the six steps of a `TRANSACT` that succeeds. -/
theorem runSteps_transactCompleted {rx d' : List Byte} {link'' : List LinkInput}
    (hexchange : nextAnswer link = some (.ok rx, link')) (hrx : rx.length = n)
    (hdeassert : nextAnswer link' = some (.ok d', link'')) :
    runSteps cfg 6 s = .next (transactCompleted n rest rx link link'' s) ∧
      phaseTrace cfg 6 s = [.idle, .assert, .revOut, .exchange, .deassert, .revIn, .idle] := by
  obtain ⟨hrun, htrace⟩ := runSteps_transactAtExchange cfg hstart hassert 3
  obtain ⟨-, -, hn, hblock⟩ := hstart
  obtain ⟨hrun', htrace'⟩ := runSteps_exchangeCompleted cfg
    (s := transactAtExchange n rest link s) (by simpa using hblock) rfl (by simpa using hexchange)
    (hrx.trans (toNat_transactAtExchange_len rest link s hn).symm) hdeassert
  exact ⟨hrun.trans hrun', htrace.trans (by rw [htrace'])⟩

/-- R120, R174: the four steps of a `TRANSACT` whose exchange fails. -/
theorem runSteps_transact_exchangeFailed {e : LinkError}
    (hexchange : nextAnswer link = some (.fail e, link')) :
    ∃ t, runSteps cfg 4 s = .next t ∧ ExchangeFailed e link' (transactAtExchange n rest link s) t := by
  obtain ⟨hrun, -⟩ := runSteps_transactAtExchange cfg hstart hassert 1
  obtain ⟨-, -, -, hblock⟩ := hstart
  have hfail := stepWith_exchange_fail cfg (transactAtExchange n rest link s) link'
    (by simpa using hblock) e rfl (by simpa using hexchange)
  exact ⟨_, hrun.trans (runSteps_succ cfg 0 _ _ hfail), exchangeFailed_exchangeFail rfl e⟩

end

theorem length_outArray (s : State) (n : Nat) : (outArray s n).length = n := by simp [outArray]

/-- R127: the bytes of `OB`, reversed twice. -/
theorem map_rev8_getElem?_outArray (s : State) {n k : Nat} (hk : k < n) :
    ((outArray s n)[k]?).map rev8 = some (s.readByte .ob k) := by
  simp [outArray, hk, rev8_rev8]

/-- Settles O35: a `TRANSACT` leaves `IB[k]` = `rev8(rx[k])`, and the echoed array is already reversed once. -/
theorem transactRoundTrip : Obligations.TransactRoundTrip := by
  intro cfg s n rest d1 d2 lrest hstart
  have ⟨_, _, hn, _⟩ := hstart
  have hresponse : ∀ rx, s.link = .answer (.ok d1) :: .answer (.ok rx) :: .answer (.ok d2) :: lrest →
      rx.length = n → ∃ t, runSteps cfg 6 s = .next t ∧ t.done = true ∧
        ∀ k, k < n → t.ib.read k = (rx[k]?).map rev8 := by
    intro rx hlink hrx
    obtain ⟨hrun, -⟩ :=
      runSteps_transactCompleted cfg hstart (by rw [hlink]; rfl) rfl hrx (link'' := lrest) rfl
    obtain ⟨hdone, -, -, -, -, -, -, -, -, hib, -⟩ := responded_transactCompleted hn rest _ lrest s hrx
    exact ⟨_, hrun, hdone, hib⟩
  refine ⟨fun hlink => ?_, hresponse⟩
  obtain ⟨t, hrun, hdone, hib⟩ := hresponse _ hlink (length_outArray s n)
  exact ⟨t, hrun, hdone, fun k hk => (hib k hk).trans (map_rev8_getElem?_outArray s hk)⟩

/-- Settles O36: the transactions of `n` bytes that succeed, and that fail in the exchange, for `n` = 0. -/
theorem zeroLengthTransact : Obligations.ZeroLengthTransact := by
  intro cfg s rest d1 d2 e lrest hstart
  have hn : 0 ≤ Config.maxLen := Nat.zero_le _
  refine ⟨fun hlink => ?ok, fun hlink => ?fail⟩
  case ok =>
    obtain ⟨hrun, htrace⟩ := runSteps_transactCompleted cfg hstart (by rw [hlink]; rfl) rfl
      (rx := []) rfl (link'' := lrest) rfl
    obtain ⟨hdone, herr, -, -, hibvalid, hilen, -, -, hcss, -, hib⟩ :=
      responded_transactCompleted (rx := []) hn rest _ lrest s rfl
    exact ⟨_, hrun, hdone, herr, hibvalid, BitVec.eq_of_toNat_eq hilen, hcss, htrace,
      transactCompleted_linkLog hn rest _ lrest s, bufferKept_ob_of_eq (transactCompleted_ob rest _ lrest s),
      fun k => (transactCompleted_tx_read hn rest _ lrest s k).trans (if_neg k.not_lt_zero),
      fun k => hib k k.zero_le⟩
  case fail =>
    obtain ⟨t, hrun, hfailed⟩ :=
      runSteps_transact_exchangeFailed cfg hstart (by rw [hlink]; rfl) (link' := lrest) rfl
    have hresponse := hfailed.noResponse
    rw [toNat_transactAtExchange_len _ _ _ hn] at hresponse
    obtain ⟨hcode, -, -, -, -, -, -, -, -, -, -, -, -, hlog, -⟩ := hfailed
    rw [transactAtExchange_linkLog, transactAtExchange_txBytes _ _ _ hn,
      transactAtExchange_bitcnt _ _ _ hn, List.append_assoc] at hlog
    exact ⟨t, hrun, hresponse, hcode, hlog⟩

end Sys2Proof.Machine
end


section
/-! The family of spec/43_session_sequences.md: the edges of R146, `BOOT`, and the rounds of `INTERACTIVE L`. -/

namespace Sys2Proof.Machine

/-! ### The edges of R146 -/

/-- Of what the HOST does, the actions of the session sequences alone touch its session. -/
theorem HostCase.hostState_eq_or {cfg : Parameters} {s t : State} {a : HostAction}
    (h : HostCase cfg s a t) :
    t.hostState = s.hostState ∨ (ofSession a = true ∧ (hostFetch cfg a s).outcome = .next t) := by
  cases h with
  | obRead addr =>
    left
    unfold hostObRead
    split <;> rfl
  | yield t hcore => exact .inl hcore.session_eq.1
  | session a t hof hout _ => exact .inr ⟨hof, hout⟩
  | obWrite | ibRead | ibReadNothing | readStatus | codec | illegal | setcs | transact | reset =>
    exact .inl rfl

section

variable {cfg : Parameters} {s : State}

/-- R182: `CLOSE` as failed is an edge from every state but `Closed`, where no recovery is due. -/
theorem hostEdge_closeFailed (hopen : ∀ b, s.hostState ≠ .closed b) (hdue : recoveryDue s = false) :
    HostEdge cfg s (closeSession false s) :=
  .inr (.inr (.inr (.inr ⟨hopen, hdue, rfl, rfl, rfl⟩)))

theorem mayStart_iff : mayStart s = true ↔ s.hostState = .deviceReady ∧ s.stage = .fresh := by
  simp [mayStart]

theorem mayLoop_iff : mayLoop s = true ↔ mayStart s = true ∨
    (s.hostState = .interactiveLoop ∧ s.stage = .finished) := by
  simp [mayLoop]

theorem mayLoop_not_closed (h : mayLoop s = true) (b : Bool) : s.hostState ≠ .closed b := by
  obtain hstart | ⟨hloop, -⟩ := mayLoop_iff.mp h
  · simp [(mayStart_iff.mp hstart).1]
  · simp [hloop]

theorem interactive_of_blockLengthOk {l : Nat} (hmode : cfg.mode = .interactive l)
    (hl : blockLengthOk l = true) : Interactive cfg l :=
  ⟨hmode, by simpa [blockLengthOk] using hl⟩

theorem Interactive.blockLengthOk {l : Nat} (h : Interactive cfg l) : blockLengthOk l = true := by
  obtain ⟨-, hpos, hmax⟩ := h
  simp [Machine.blockLengthOk, hpos, hmax]

variable {t : State}

/-- R154 (a): the start of a session or of `BOOT` leaves `Idle` under a configuration error only. -/
theorem startUp_edge {u : State} (h : startUp cfg u s = .next t) (hu : u.hostState = s.hostState) :
    t.hostState = s.hostState ∨ HostEdge cfg s t := by
  obtain ⟨huntouched, ⟨-, rfl⟩ | ⟨-, rfl⟩⟩ := startUp_next h
  · exact .inl hu
  · obtain ⟨-, heq⟩ | ⟨hdue, heq⟩ := endFailed_cases s <;> rw [heq]
    · exact .inl rfl
    · have hidle : s.hostState = .idle := by simp_all [untouched]
      exact .inr (hostEdge_closeFailed (by simp [hidle]) hdue)

theorem hostReady_edge (h : hostReady s = .next t) : HostEdge cfg s t := by
  obtain ⟨hforced, rfl⟩ := hostReady_next h
  have hdone : BootDone s := by simpa [baselineForced, BootDone, and_assoc] using hforced
  exact .inl ⟨hdone, rfl, rfl, rfl⟩

/-- R156: the sequence of the configured mode, and no other, is entered. -/
theorem hostStart_edge {input : List Byte} (h : hostStart cfg input s = .next t) :
    t.hostState = s.hostState ∨ HostEdge cfg s t := by
  obtain ⟨-, ⟨-, rfl⟩ | ⟨hstands, hsequence⟩⟩ := hostStart_next h
  · exact .inl rfl
  obtain ⟨b, -, -, rfl⟩ | ⟨hmode, hstart, rfl⟩ | ⟨l, hmode, hloop, hl, rfl⟩ | ⟨l, -, hloop, -, rfl⟩ :=
    hsequence
  · exact .inl rfl
  · obtain ⟨hready, hfresh⟩ := mayStart_iff.mp hstart
    exact .inr (.inr (.inl ⟨hready, hfresh, hmode, rfl⟩))
  · obtain hstart | ⟨hstate, -⟩ := mayLoop_iff.mp hloop
    · obtain ⟨hready, hfresh⟩ := mayStart_iff.mp hstart
      exact .inr (.inr (.inr (.inl
        ⟨hready, hfresh, ⟨l, interactive_of_blockLengthOk hmode hl⟩, rfl⟩)))
    · exact .inl hstate.symm
  · exact .inr (hostEdge_closeFailed (mayLoop_not_closed hloop) (recoveryDue_of_not_stands hstands).2)

theorem hostCheck_hostState (s : State) : (hostCheck s).hostState = s.hostState := by
  obtain ⟨-, heq⟩ | ⟨-, -, -, heq⟩ | heq := hostCheck_cases s <;>
    exact (congrArg State.hostState heq).trans rfl

theorem hostEmit_hostState (h : hostEmit s = .next t) : t.hostState = s.hostState := by
  obtain ⟨-, rfl⟩ | ⟨-, -, -, -, bytes, -, rfl⟩ := hostEmit_next h
  · rfl
  · rfl

theorem hostClose_edge {b : Bool} (h : hostClose b s = .next t) :
    t.hostState = s.hostState ∨ HostEdge cfg s t := by
  obtain ⟨hmay, ⟨-, rfl⟩ | ⟨hfree, rfl⟩⟩ := hostClose_next h
  · exact .inl rfl
  right
  cases b with
  | false => exact hostEdge_closeFailed (mayClose_not_closed hmay) (closeBlocked_false hfree).1
  | true =>
    obtain ⟨hfinished, hstate⟩ := mayClose_true hmay
    exact .inr (.inr (.inr (.inl
      ⟨hstate, hfinished, (failureStands_eq_false_iff s).mp hfree, rfl, rfl, rfl⟩)))

/-- R146: an action of the session sequences takes an edge, or leaves the HOST's state. -/
theorem sessionAction_edge {a : HostAction} (hof : ofSession a = true)
    (h : (hostFetch cfg a s).outcome = .next t) : t.hostState = s.hostState ∨ HostEdge cfg s t := by
  cases a with
  | session input => exact startUp_edge h rfl
  | boot => exact startUp_edge h rfl
  | ready => exact .inr (hostReady_edge h)
  | start input => exact hostStart_edge h
  | check =>
    obtain rfl : hostCheck s = t := Host.Outcome.next.inj h
    exact .inl (hostCheck_hostState s)
  | emit => exact .inl (hostEmit_hostState h)
  | close b => exact hostClose_edge h
  | obWrite | obRead | ibRead | readStatus | codec | command | reset | yield => cases hof

end

/-- Settles O60: of all that a step can do, a session action alone changes the HOST's state, along an edge. -/
theorem hostStateTransitions : Obligations.HostStateTransitions := by
  intro cfg s t h
  obtain ⟨a, rest, -, -, hcase⟩ | ⟨-, hcase⟩ := stepWith_cases h
  · obtain heq | ⟨hof, hout⟩ := hcase.hostState_eq_or
    · exact .inl heq
    · exact sessionAction_edge (s := { s with host := rest }) hof hout
  · exact .inl hcase.session_eq.1

/-! ### `BOOT` (R147) -/

/-- Where a `SETCS en` whose request succeeds ends; `rest` is what the HOST still has to do, `link` what the LINK
still will do. -/
def setcsCompleted (en : Bool) (rest : List HostAction) (link : List LinkInput) (s : State) : State :=
  complete (lineMoved (controlVerb en) (answered (controlEvent (controlVerb en) (.ok [])) link
    (beginSetcs en (noteCommand (if en then 0x2001#16 else 0x2000#16) { s with host := rest }))))

/-- R100, R102, R103: the two steps of a `SETCS` that succeeds. -/
theorem runSteps_setcsCompleted (cfg : Parameters) {s : State} {en : Bool} {rest : List HostAction}
    {d : List Byte} {link : List LinkInput} (hstart : StartsSetcs s en rest)
    (hanswer : nextAnswer s.link = some (.ok d, link)) :
    runSteps cfg 2 s = .next (setcsCompleted en rest link s) := by
  have haccept := stepWith_startsSetcs cfg s en rest hstart
  obtain ⟨-, -, hblock⟩ := hstart
  have hmove := stepWith_control_ok cfg
    (beginSetcs en (noteCommand (if en then 0x2001#16 else 0x2000#16) { s with host := rest })) link
    hblock (controlVerb en) d rfl hanswer
  rw [runSteps_succ _ _ _ _ haccept, runSteps_succ _ _ _ _ hmove]
  rfl

/-- R147 (4): `BOOT`'s own `setcs 0` leaves no recovery owed. -/
theorem recoveryAfter_of_booting {s : State} (h : s.stage = .booting) :
    recoveryAfter 0x2000#16 s = .clear := by
  have hword : encodeSetcs false = 0x2000#16 := rfl
  simp [recoveryAfter, h, hword]

/-- R182: a recovery that is due comes before `CLOSE`. -/
theorem endFailed_of_due {s : State} (hdue : recoveryDue s = true) :
    endFailed s = { s with host := [.command 0x2000#16, .close false], stage := .failed } := by
  rw [endFailed, hdue, if_pos rfl, failSession, hdue]
  rfl

theorem untouched_iff {s : State} :
    untouched s = true ↔ s.hostState = .idle ∧ s.device = .notOpen ∧ s.stage = .fresh := by
  simp [untouched, and_assoc]

section

variable {cfg : Parameters} {s : State} (huntouched : untouched s = true)
include huntouched

theorem startUp_of_not_bad (hcfg : ¬BadConfig cfg) (t : State) : startUp cfg t s = .next t := by
  simp [startUp, huntouched, (configOk_iff cfg).mpr hcfg]

theorem startUp_of_bad (hcfg : BadConfig cfg) (t : State) : startUp cfg t s = .next (endFailed s) := by
  simp [startUp, huntouched, (configOk_eq_false_iff cfg).mpr hcfg]

/-- R154 (a): where nothing is begun, `CLOSE` has no device to release and no stage to leave. -/
theorem endFailed_of_untouched (hdue : recoveryDue s = false) :
    endFailed s = { s with hostState := .closed false, host := [] } := by
  obtain ⟨-, hdevice, hstage⟩ := untouched_iff.mp huntouched
  rw [endFailed, hdue, if_neg Bool.false_ne_true, closeSession, ← hdevice, ← hstage]

end

/-- R147 (1) to (3): the device is open, and the actions of `BOOT` stand before the others. -/
def bootBegun (rest : List HostAction) (s : State) : State :=
  { s with device := .opened, stage := .booting, host := bootActions ++ rest }

/-- R147 (4): its `setcs 0` has succeeded, and the HOST is about to look at the result. -/
def bootCommanded (rest : List HostAction) (link : List LinkInput) (s : State) : State :=
  setcsCompleted false (.check :: .ready :: rest) link (bootBegun rest s)

/-- R147 (5), (6): what `BOOT` reaches. -/
def bootFinished (rest : List HostAction) (link : List LinkInput) (s : State) : State :=
  { bootCommanded rest link s with
    host := rest, hostState := .deviceReady, device := .jtagSelected, stage := .fresh }

section

variable {cfg : Parameters} {s : State} {rest : List HostAction} (hcfg : ¬BadConfig cfg)
  (hp : s.phase = .idle) (huntouched : untouched s = true) (hh : s.host = .boot :: rest)
include hcfg hp huntouched hh

theorem stepWith_bootBegun : stepWith cfg s = .next (bootBegun rest s) := by
  rw [stepWith_host_idle cfg s _ rest hp hh]
  exact startUp_of_not_bad (s := { s with host := rest }) huntouched hcfg _

/-- R147: the five steps of a `BOOT` that succeeds: its start, its `setcs 0`, the look at the result, and
`DeviceReady`. -/
theorem runSteps_bootFinished {d : List Byte} {link : List LinkInput}
    (hanswer : nextAnswer s.link = some (.ok d, link)) :
    runSteps cfg 5 s = .next (bootFinished rest link s) := by
  have hbegin := stepWith_bootBegun hcfg hp huntouched hh
  have hsetcs : runSteps cfg 2 (bootBegun rest s) = .next (bootCommanded rest link s) :=
    runSteps_setcsCompleted cfg ⟨hp, rfl, rfl⟩ hanswer
  have hcheck : stepWith cfg (bootCommanded rest link s) =
      .next { bootCommanded rest link s with host := .ready :: rest } :=
    stepWith_host_idle cfg _ .check (.ready :: rest) rfl rfl
  have hready : stepWith cfg { bootCommanded rest link s with host := .ready :: rest } =
      .next (bootFinished rest link s) := by
    have hforced : baselineForced { bootCommanded rest link s with host := rest } = true := by
      simp [baselineForced, bootCommanded, setcsCompleted, bootBegun, controlVerb, cssAfter,
        (untouched_iff.mp huntouched).1]
    rw [stepWith_host_idle cfg _ .ready rest rfl rfl]
    exact if_pos hforced
  rw [runSteps_succ cfg 4 _ _ hbegin, runSteps_add cfg 2 2 _ _ hsetcs, runSteps_succ _ _ _ _ hcheck,
    runSteps_succ _ _ _ _ hready, runSteps_zero]

end

/-- R147: a command without a transfer leaves the buffers as they are. -/
theorem setcsCompleted_store (en : Bool) (rest : List HostAction) (link : List LinkInput) (s : State)
    (sp : Space) : (setcsCompleted en rest link s).store sp = s.store sp := by
  cases sp <;> simp [setcsCompleted]

theorem setcsCompleted_len (en : Bool) (rest : List HostAction) (link : List LinkInput) (s : State) :
    (setcsCompleted en rest link s).len = s.len := by
  simp [setcsCompleted]

theorem bootFinished_store (rest : List HostAction) (link : List LinkInput) (s : State) (sp : Space) :
    (bootFinished rest link s).store sp = s.store sp := by
  have hsetcs := setcsCompleted_store false (.check :: .ready :: rest) link (bootBegun rest s) sp
  cases sp <;> exact hsetcs

theorem bootFinished_recovery (rest : List HostAction) (link : List LinkInput) (s : State) :
    (bootFinished rest link s).recovery = .clear := recoveryAfter_of_booting rfl

/-- R145: a session begins with `BOOT`, then the sequence of its mode. -/
theorem stepWith_session {cfg : Parameters} {s : State} {input : List Byte} {rest : List HostAction}
    (hcfg : ¬BadConfig cfg) (hp : s.phase = .idle) (huntouched : untouched s = true)
    (hh : s.host = .session input :: rest) :
    stepWith cfg s = .next { s with host := .boot :: .start input :: rest } := by
  rw [stepWith_host_idle cfg s _ rest hp hh]
  exact startUp_of_not_bad (s := { s with host := rest }) huntouched hcfg _

/-- R154 (a): a configuration error is fatal at the start of a session, and of `BOOT`. -/
theorem stepWith_badConfig {cfg : Parameters} {s : State} {input : List Byte} {rest : List HostAction}
    (hcfg : BadConfig cfg) (hp : s.phase = .idle) (huntouched : untouched s = true)
    (hh : s.host = .session input :: rest ∨ s.host = .boot :: rest) :
    stepWith cfg s = .next (endFailed { s with host := rest }) := by
  obtain hh | hh := hh <;> rw [stepWith_host_idle cfg s _ rest hp hh] <;>
    exact startUp_of_bad (s := { s with host := rest }) huntouched hcfg _

/-- Settles O55: the five steps of `BOOT`, the step that begins a session, and the step that a configuration error
ends it with. -/
theorem bootForcesBaseline : Obligations.BootForcesBaseline := by
  constructor
  · intro cfg s rest d lrest hcfg hp hidle hdevice hstage hh hlink
    have huntouched : untouched s = true := untouched_iff.mpr ⟨hidle, hdevice, hstage⟩
    have hanswer : nextAnswer s.link = some (.ok d, lrest) := by rw [hlink]; rfl
    refine ⟨⟨_, stepWith_bootBegun hcfg hp huntouched hh, hidle, rfl, .inl rfl, nofun⟩,
      _, runSteps_bootFinished hcfg hp huntouched hh hanswer, rfl, ⟨rfl, rfl⟩, .inr rfl, rfl,
      ⟨rfl, ?owed⟩, rfl, rfl, rfl, rfl, buffersKept_of_store (bootFinished_store rest lrest s),
      setcsCompleted_len false (.check :: .ready :: rest) lrest (bootBegun rest s)⟩
    case owed => simp [bootFinished_recovery]
  · intro cfg s input rest hp hidle hdevice hstage
    have huntouched : untouched s = true := untouched_iff.mpr ⟨hidle, hdevice, hstage⟩
    refine ⟨fun hcfg hh => stepWith_session hcfg hp huntouched hh, fun hcfg hh => ?bad⟩
    have hstep := stepWith_badConfig hcfg hp huntouched hh
    refine ⟨fun hdue => ?closed, fun hdue => ?due⟩
    case closed =>
      rw [endFailed_of_untouched (s := { s with host := rest }) huntouched hdue] at hstep
      exact ⟨_, hstep, rfl, rfl, fun _ _ => rfl, rfl⟩
    case due => exact ⟨_, hstep, endFailed_of_due (s := { s with host := rest }) hdue⟩

/-! ### A transfer of a session (R149, R150) -/

section

variable (s : State)

@[simp] theorem revOutPhase_hostState : (revOutPhase s).hostState = s.hostState := by rw [revOutPhase_eq]
@[simp] theorem revOutPhase_stage : (revOutPhase s).stage = s.stage := by rw [revOutPhase_eq]
@[simp] theorem revOutPhase_recovery : (revOutPhase s).recovery = s.recovery := by rw [revOutPhase_eq]
@[simp] theorem revOutPhase_emitted : (revOutPhase s).emitted = s.emitted := by rw [revOutPhase_eq]

@[simp] theorem revInPhase_hostState : (revInPhase s).hostState = s.hostState := by rw [revInPhase_eq]
@[simp] theorem revInPhase_stage : (revInPhase s).stage = s.stage := by rw [revInPhase_eq]
@[simp] theorem revInPhase_recovery : (revInPhase s).recovery = s.recovery := by rw [revInPhase_eq]
@[simp] theorem revInPhase_emitted : (revInPhase s).emitted = s.emitted := by rw [revInPhase_eq]

variable (n : Nat) (rest : List HostAction) (rx : List Byte) (link link' : List LinkInput)

theorem transactCompleted_host : (transactCompleted n rest rx link link' s).host = rest := by
  simp [transactCompleted, exchangeCompleted, exchangeDeselected, exchangeReturned]

theorem transactCompleted_link : (transactCompleted n rest rx link link' s).link = link' := by
  simp [transactCompleted, exchangeCompleted, exchangeDeselected]

/-- A `TRANSACT` that succeeds leaves the HOST's session as it was. -/
theorem transactCompleted_session :
    (transactCompleted n rest rx link link' s).hostState = s.hostState ∧
      (transactCompleted n rest rx link link' s).stage = s.stage ∧
      (transactCompleted n rest rx link link' s).emitted = s.emitted := by
  simp [transactCompleted, exchangeCompleted, exchangeDeselected, exchangeReturned, transactAtExchange,
    transactSelected, transactAccepted]

variable {s}

/-- R182: issued while no failure stands, it leaves nothing to remember. -/
theorem transactCompleted_recovery (hdue : recoveryDue s = false) :
    (transactCompleted n rest rx link link' s).recovery = .clear := by
  simp [transactCompleted, exchangeCompleted, exchangeDeselected, exchangeReturned, transactAtExchange,
    transactSelected, transactAccepted, noteCommand_of_not_due _ { s with host := rest } hdue]

end

/-- Reading a list index by index, where every read succeeds. -/
theorem mapM_range_eq_some {α : Type} {f : Nat → Option α} {l : List α}
    (h : ∀ k, k < l.length → f k = l[k]?) : (List.range l.length).mapM f = some l := by
  induction l generalizing f with
  | nil => rfl
  | cons a l ih =>
    have htail : (List.range l.length).mapM (f ∘ Nat.succ) = some l :=
      ih fun k hk => h (k + 1) (Nat.succ_lt_succ hk)
    rw [List.length_cons, List.range_succ_eq_map, List.mapM_cons, h 0 (Nat.zero_lt_succ _), List.mapM_map,
      htail]
    rfl

/-- R202: after a success every byte of the response has a specified value. -/
theorem Responded.responseBytes {n : Nat} {rx : List Byte} {t : State} (h : Responded n rx t)
    (hrx : rx.length = n) : t.responseBytes = some (rx.map rev8) := by
  obtain ⟨-, -, -, -, hibvalid, hilen, -, -, -, hib, -⟩ := h
  have hlength : t.ilen.toNat = (rx.map rev8).length := by rw [hilen, List.length_map, hrx]
  rw [State.responseBytes, hlength]
  refine mapM_range_eq_some fun k hk => ?_
  rw [State.response, if_pos ⟨hibvalid, hlength ▸ hk⟩, hib k (hilen ▸ hlength ▸ hk), List.getElem?_map]

/-- R130: the array for the LINK, where `block` stands in `OB`. -/
theorem outArray_of_read {s : State} {block : List Byte}
    (h : ∀ k, k < block.length → s.ob.read k = block[k]?) :
    outArray s block.length = block.map rev8 := by
  refine List.ext_getElem (by simp [outArray]) fun k hk _ => ?_
  have hk : k < block.length := by simpa [outArray] using hk
  have hread : s.readByte .ob k = block[k] :=
    readByte_of_read ((h k hk).trans (List.getElem?_eq_getElem hk))
  simp [outArray, hread]

/-- The HOST's emission after a transfer that succeeded. -/
theorem hostEmit_of_bytes {s : State} {bytes : List Byte} (herr : s.err = false)
    (hstage : s.stage = .transferring) (hdone : s.done = true) (hibvalid : s.ibvalid = true)
    (hbytes : s.responseBytes = some bytes) :
    hostEmit s = .next { s with emitted := s.emitted ++ [bytes], stage := .finished } := by
  simp [hostEmit, herr, hstage, hdone, hibvalid, hbytes]

/-- The block is written to `OB`, and the `TRANSACT` stands on the command port. -/
def blockWritten (block : List Byte) (tail : List HostAction) (s : State) : State :=
  { s with ob := s.ob.writeAll 0 block, host := .command (encodeTransact block.length) :: .emit :: tail }

theorem blockWritten_ob_read {block : List Byte} (hmax : block.length ≤ Config.maxLen)
    (tail : List HostAction) (s : State) {k : Nat} (hk : k < block.length) :
    (blockWritten block tail s).ob.read k = block[k]? := by
  refine (Memory.read_writeAll s.ob 0 block k (by omega)).trans ?_
  rw [if_pos (by omega), Nat.sub_zero]

/-- What a transfer of `block` that succeeds leaves, from `s` to `t`: `rx` is what the LINK returned, `tail` what
the HOST still has to do, `link` what the LINK still will do. -/
structure Transferred (block rx : List Byte) (tail : List HostAction) (link : List LinkInput)
    (s t : State) : Prop where
  phase : t.phase = .idle
  css : t.css = .deasserted
  noFailure : NoFailure t
  host : t.host = tail
  link : t.link = link
  hostState : t.hostState = s.hostState
  stage : t.stage = .finished
  emitted : t.emitted = s.emitted ++ [rx.map rev8]
  linkLog : t.linkLog = s.linkLog ++ transferEvents block rx
  ob : ∀ k, k < block.length → t.ob.read k = block[k]?

/-- The `TRANSACT` of such a transfer has succeeded, and the HOST is about to emit the response. -/
def transferAnswered (block rx : List Byte) (tail : List HostAction) (link link' : List LinkInput)
    (s : State) : State :=
  transactCompleted block.length (.emit :: tail) rx link link' (blockWritten block tail s)

/-- Where such a transfer ends. -/
def transferCompleted (block rx : List Byte) (tail : List HostAction) (link link' : List LinkInput)
    (s : State) : State :=
  { transferAnswered block rx tail link link' s with
    host := tail, emitted := s.emitted ++ [rx.map rev8], stage := .finished }

section

variable {s : State} {block rx : List Byte} (tail : List HostAction) (link link' : List LinkInput)
  (hmax : block.length ≤ Config.maxLen) (hrx : rx.length = block.length)
include hmax hrx

theorem responded_transferAnswered :
    Responded block.length rx (transferAnswered block rx tail link link' s) :=
  responded_transactCompleted hmax (.emit :: tail) link link' (blockWritten block tail s) hrx

theorem transferred_transferCompleted (hfree : NoFailure s) :
    Transferred block rx tail link' s (transferCompleted block rx tail link link' s) where
  phase := rfl
  css := by
    obtain ⟨-, -, -, -, -, -, -, -, hcss, -⟩ :=
      responded_transferAnswered tail link link' hmax hrx (s := s)
    exact hcss
  noFailure := by
    obtain ⟨-, herr, -⟩ := responded_transferAnswered tail link link' hmax hrx (s := s)
    have hclear : (transferCompleted block rx tail link link' s).recovery = .clear :=
      transactCompleted_recovery _ _ _ _ _ hfree.not_due
    exact ⟨herr, by simp [hclear]⟩
  host := rfl
  link := transactCompleted_link (blockWritten block tail s) block.length (.emit :: tail) rx link link'
  hostState := by
    obtain ⟨hkept, -⟩ :=
      transactCompleted_session (blockWritten block tail s) block.length (.emit :: tail) rx link link'
    exact hkept
  stage := rfl
  emitted := rfl
  linkLog := by
    have hlog := transactCompleted_linkLog hmax (.emit :: tail) (rx := rx) link link'
      (blockWritten block tail s)
    rw [outArray_of_read fun k hk => blockWritten_ob_read hmax tail s hk] at hlog
    exact hlog
  ob k hk := by
    have hob := transactCompleted_ob (n := block.length) (.emit :: tail) (rx := rx) link link'
      (blockWritten block tail s)
    exact (congrArg (Memory.read · k) hob).trans (blockWritten_ob_read hmax tail s hk)

/-- R149, R150, R202: the response is emitted. -/
theorem stepWith_transferCompleted (cfg : Parameters) (hstage : s.stage = .transferring) :
    stepWith cfg (transferAnswered block rx tail link link' s) =
      .next (transferCompleted block rx tail link link' s) := by
  have hresponded := responded_transferAnswered tail link link' hmax hrx (s := s)
  have hbytes := hresponded.responseBytes hrx
  obtain ⟨hdone, herr, -, -, hibvalid, -, -, hphase, -⟩ := hresponded
  have hhost : (transferAnswered block rx tail link link' s).host = .emit :: tail :=
    transactCompleted_host ..
  obtain ⟨-, hkept, hemitted⟩ :=
    transactCompleted_session (blockWritten block tail s) block.length (.emit :: tail) rx link link'
  rw [stepWith_host_idle cfg _ .emit tail hphase hhost, transferCompleted,
    show s.emitted = (transferAnswered block rx tail link link' s).emitted from hemitted.symm]
  exact hostEmit_of_bytes (s := { transferAnswered block rx tail link link' s with host := tail }) herr
    (hkept.trans hstage) hdone hibvalid hbytes

end

/-- R149, R150: a whole transfer: the writes to `OB`, the six steps of the `TRANSACT`, and the emission. -/
theorem runSteps_transferred (cfg : Parameters) {s : State} {block rx d d' : List Byte}
    {tail : List HostAction} {link : List LinkInput} (hp : s.phase = .idle)
    (hstage : s.stage = .transferring) (hfree : NoFailure s) (hmax : block.length ≤ Config.maxLen)
    (hrx : rx.length = block.length) (hh : s.host = transferActions block ++ tail)
    (hlink : s.link = .answer (.ok d) :: .answer (.ok rx) :: .answer (.ok d') :: link) :
    ∃ t, runSteps cfg (block.length + 7) s = .next t ∧ Transferred block rx tail link s t := by
  have hwrite : runSteps cfg (block.length + 7) s = runSteps cfg 7 (blockWritten block tail s) :=
    runSteps_obActions cfg block 0 7 s _ hp (by omega) (by rw [hh, transferActions, List.append_assoc]; rfl)
  have hstart : StartsTransact (blockWritten block tail s) block.length (.emit :: tail) :=
    ⟨hp, congrArg (HostAction.command · :: .emit :: tail) (encodeTransact_eq _ hmax), hmax, rfl⟩
  have hassert : nextAnswer (blockWritten block tail s).link =
      some (.ok d, .answer (.ok rx) :: .answer (.ok d') :: link) := congrArg nextAnswer hlink
  obtain ⟨htransact, -⟩ := runSteps_transactCompleted cfg hstart hassert rfl hrx rfl
  have hemit := stepWith_transferCompleted tail (.answer (.ok rx) :: .answer (.ok d') :: link) link
    hmax hrx cfg hstage
  have hrun := hwrite.trans ((runSteps_add cfg 6 1 _ _ htransact).trans (runSteps_succ cfg 0 _ _ hemit))
  exact ⟨_, hrun, transferred_transferCompleted tail _ link hmax hrx hfree⟩

/-! ### The rounds of `INTERACTIVE L` (R150) -/

theorem AwaitsBlock.mayLoop {s : State} (h : AwaitsBlock s) : mayLoop s = true :=
  mayLoop_iff.mpr (h.2.imp_left mayStart_iff.mpr)

/-- A round of `INTERACTIVE l` begins over what is left of the input. -/
def roundBegun (l : Nat) (input : List Byte) (rest : List HostAction) (s : State) : State :=
  { s with
    host := interactiveActions l input ++ rest, hostState := .interactiveLoop,
    stage := roundStage l input }

section

variable {cfg : Parameters} {s : State} {l : Nat} {input : List Byte} {rest : List HostAction}

section

variable (hp : s.phase = .idle) (hcfg : Interactive cfg l) (hawaits : AwaitsBlock s)
  (hh : s.host = .start input :: rest)
include hp hcfg hawaits hh

theorem stepWith_roundBegun : stepWith cfg s = .next (roundBegun l input rest s) := by
  have hloop : mayLoop { s with host := rest } = true := hawaits.mayLoop
  have hfree : failureStands { s with host := rest } = false :=
    (failureStands_eq_false_iff s).mpr hawaits.1
  rw [stepWith_host_idle cfg s _ rest hp hh]
  simp only [hostFetch, Fetched.outcome, hostStart, hcfg.1, hloop, hfree, hcfg.blockLengthOk, if_true]
  rfl

/-- R150: one round over an input that holds a whole block. -/
theorem runSteps_round {rx : List Byte} {link : List LinkInput} (hl : l ≤ input.length)
    (hrx : rx.length = l) (hlink : s.link = transferAnswers rx ++ link) :
    ∃ t, runSteps cfg (l + 8) s = .next t ∧ Transferred (input.take l) rx
      (.start (input.drop l) :: rest) link (roundBegun l input rest s) t := by
  have ⟨_, hpos, hmax⟩ := hcfg
  have htake : (input.take l).length = l := List.length_take_of_le hl
  have hactions : interactiveActions l input =
      transferActions (input.take l) ++ [.start (input.drop l)] := by
    rw [interactiveActions, if_neg (by omega), if_neg (by omega)]
  have hstage : roundStage l input = .transferring := by
    rw [roundStage, if_neg (by omega), if_neg (by omega)]
  obtain ⟨t, hrun, htransferred⟩ := runSteps_transferred cfg (s := roundBegun l input rest s)
    (block := input.take l) hp hstage hawaits.1 (by omega) (by omega)
    (by rw [roundBegun, hactions, List.append_assoc]) hlink
  rw [htake] at hrun
  exact ⟨t, (runSteps_succ cfg (l + 7) _ _ (stepWith_roundBegun hp hcfg hawaits hh)).trans hrun,
    htransferred⟩

end

theorem Transferred.awaitsBlock {block rx : List Byte} {tail : List HostAction} {link : List LinkInput}
    {t : State} (h : Transferred block rx tail link (roundBegun l input rest s) t) : AwaitsBlock t :=
  ⟨h.noFailure, .inr ⟨h.hostState, h.stage⟩⟩

theorem hostClose_of_free {b : Bool} (hmay : mayClose b s = true) (hfree : closeBlocked b s = false) :
    hostClose b s = .next (closeSession b s) := by
  simp [hostClose, hmay, hfree]

/-- R150: end-of-input between two blocks is the clean end. -/
theorem runSteps_cleanEnd (hp : s.phase = .idle) (hcfg : Interactive cfg l) (hawaits : AwaitsBlock s)
    (hh : s.host = .start [] :: rest) :
    runSteps cfg 2 s = .next (closeSession true (roundBegun l [] rest s)) := by
  have hclose : stepWith cfg (roundBegun l [] rest s) =
      .next (closeSession true (roundBegun l [] rest s)) := by
    have hblocked : closeBlocked true (roundBegun l [] rest s) = false :=
      NoFailure.closeBlocked (s := roundBegun l [] rest s) hawaits.1 true
    rw [stepWith_host_idle cfg (roundBegun l [] rest s) (.close true) rest hp rfl]
    exact hostClose_of_free (s := { roundBegun l [] rest s with host := rest }) rfl hblocked
  rw [runSteps_succ _ _ _ _ (stepWith_roundBegun hp hcfg hawaits hh), runSteps_succ _ _ _ _ hclose,
    runSteps_zero]

end

/-- Settles O59: a round is `runSteps_round`; a session goes round by round, each of which leaves the HOST about to
collect the next block, to the clean end. -/
theorem interactiveSession : Obligations.InteractiveSession := by
  constructor
  · intro cfg s l input rx rest lrest hp hcfg hawaits hl hrx hh hlink
    obtain ⟨t, hrun, ht⟩ := runSteps_round hp hcfg hawaits hh hl hrx hlink
    refine ⟨t, hrun, ht.phase, ht.awaitsBlock, ht.hostState, ht.css, ht.host, ht.link, ht.emitted,
      ht.linkLog, fun k hk => ?_⟩
    rw [ht.ob k (by rwa [List.length_take_of_le hl]), List.getElem?_take_of_lt hk]
  · intro cfg s l rounds
    induction rounds generalizing s with
    | nil =>
      intro rest lrest hp hcfg hawaits _ hh hlink
      have hrun := runSteps_cleanEnd hp hcfg hawaits hh
      rw [← Nat.zero_add 2, ← Nat.zero_mul (l + 8)] at hrun
      exact ⟨_, hrun, rfl, rfl, rfl, hp, hlink, by simp [roundBegun],
        by simp [roundBegun]⟩
    | cons r rounds ih =>
      intro rest lrest hp hcfg hawaits hlen hh hlink
      obtain ⟨⟨hblock, hrx⟩, hlen⟩ := List.forall_mem_cons.mp hlen
      rw [List.flatMap_cons] at hh
      rw [List.flatMap_cons, List.append_assoc] at hlink
      obtain ⟨t, hrun, ht⟩ := runSteps_round hp hcfg hawaits hh (by simp [hblock]) hrx hlink
      rw [List.take_left' hblock, List.drop_left' hblock] at ht
      obtain ⟨u, hrun', hstate, hhost, hdevice, hphase, hlink', hemitted, hlog⟩ :=
        ih t rest lrest ht.phase hcfg ht.awaitsBlock hlen ht.host ht.link
      have hsteps : (r :: rounds).length * (l + 8) + 2 = (l + 8) + (rounds.length * (l + 8) + 2) := by
        rw [List.length_cons]
        ring
      refine ⟨u, ?_, hstate, hhost, hdevice, hphase, hlink', ?_, ?_⟩
      · rw [hsteps, runSteps_add _ _ _ _ _ hrun, hrun']
      · rw [hemitted, ht.emitted, List.append_assoc]
        rfl
      · rw [hlog, ht.linkLog, List.append_assoc]
        rfl

end Sys2Proof.Machine
end


section
/-! The family of spec/60_exceptions.md: taking a failure, and the whole operations that end in one. -/

namespace Sys2Proof.Machine

/-! ### Taking a failure (R172, R180) -/

theorem raiseErr_store (b : Bool) (c : ECode) (e : LinkError) (s : State) (sp : Space) :
    (raiseErr b c e s).store sp = s.store sp := by
  cases sp <;> rfl

/-- Settles O45: `raiseErr` field by field; the operation decides `IBVALID` and `ILEN` alone. -/
theorem raiseExactly : Obligations.RaiseExactly := by
  intro transact code e s
  refine ⟨rfl, rfl, rfl, rfl, rfl, rfl, ?ofTransact, ?ofOther,
    buffersKept_of_store (raiseErr_store transact code e s), rfl⟩
  case ofTransact =>
    rintro rfl
    exact ⟨rfl, rfl⟩
  case ofOther =>
    rintro rfl
    exact ⟨rfl, rfl⟩

/-- R172: what an idle core's failure `E_LEN` sets; all else stands as before. -/
theorem raiseOwn_eLen_of_idle {s : State} (hp : s.phase = .idle) :
    raiseOwn true .eLen (clearResponse s) = { s with
      done := false, err := true, ecode := .eLen, fph := .idle, ibvalid := false, ilen := 0,
      lerr := Config.freeLerr (s.draws + 1), draws := s.draws + 2 } := by
  ext1
  case phase => exact hp.symm
  case fph => exact hp
  all_goals rfl

theorem exec_transact_tooLong {n : Nat} {s : State} (hp : s.phase = .idle) (hn : Config.maxLen < n) :
    exec (.transact n) s = .next (raiseOwn true .eLen (clearResponse s)) := by
  show execTransact n s = _
  rw [execTransact, if_pos hp, if_neg (Nat.not_le.mpr hn)]

/-- Settles O19: the length is out of range, so the failure `E_LEN` is all that happens. -/
theorem transactTooLong : Obligations.TransactTooLong := by
  intro n s hp hn
  have hexec := exec_transact_tooLong hp hn
  rw [raiseOwn_eLen_of_idle hp] at hexec
  exact ⟨_, hexec, request_of_idle hp, rfl, rfl, rfl,
    buffersKept_of_store fun sp => by cases sp <;> rfl, rfl, rfl, rfl, rfl, rfl, hp, rfl⟩

/-! ### A control-line request that fails (R173, R175, R176) -/

/-- R102, R103: with the HOST waiting, the step that takes the answer `fail(e)`. -/
theorem stepWith_controlFailed (cfg : Parameters) {v : ControlVerb} {s : State} {e : LinkError}
    {link : List LinkInput} (hblock : blocking s.host = true) (hr : s.request = some v.instr)
    (hn : nextAnswer s.link = some (.fail e, link)) :
    ∃ t, stepWith cfg s = .next t ∧ ControlFailed v e link s t :=
  ⟨_, stepWith_control_fail cfg s link hblock v e hr hn, controlFailed_controlFail hr e⟩

section

variable {v : ControlVerb} {e : LinkError} {link : List LinkInput} {s t : State}
  (h : ControlFailed v e link s t)
include h

/-- R180: what the operation had done before, and what the HOST still has to do, stay. -/
theorem ControlFailed.len_host_eq : t.len = s.len ∧ t.host = s.host := by
  obtain ⟨-, -, -, -, -, -, -, -, -, -, -, -, -, -, hframe⟩ := h
  exact ⟨by rw [hframe], by rw [hframe]⟩

/-- R123: a `TRANSACT` whose control-line request failed has no response. -/
theorem ControlFailed.noResponse (hp : s.phase ≠ .csOnly) : NoResponse s.len.toNat t := by
  have hrequest := h.request_eq_none
  obtain ⟨hlen, -⟩ := h.len_host_eq
  obtain ⟨-, -, -, -, herr, hdone, -, -, -, hphase, -, hdiscard, -⟩ := h
  obtain ⟨hibvalid, hilen, hib⟩ := hdiscard hp
  exact ⟨herr, hdone, hibvalid, hilen, congrArg BitVec.toNat hlen, hphase, hrequest, hib⟩

/-- R176: the failure of a `SETCS` leaves every byte and the response of the last `TRANSACT`. -/
theorem ControlFailed.response_kept (hp : s.phase = .csOnly) :
    t.ilen = s.ilen ∧ t.ibvalid = s.ibvalid ∧ BuffersKept s t := by
  obtain ⟨-, -, -, -, -, -, -, -, -, -, hkept, -, hob, htx, -⟩ := h
  obtain ⟨hibvalid, hilen, hib⟩ := hkept hp
  refine ⟨hilen, hibvalid, fun sp => ?_⟩
  cases sp with
  | ob => exact hob
  | ib => exact hib
  | tx => exact htx

end

/-! ### A whole `SETCS` (R100, R106, R176) -/

/-- `SETCS en` is accepted; `rest` is what the HOST still has to do. -/
def setcsAccepted (en : Bool) (rest : List HostAction) (s : State) : State :=
  beginSetcs en (noteCommand (if en then 0x2001#16 else 0x2000#16) { s with host := rest })

theorem setcsAccepted_store (en : Bool) (rest : List HostAction) (s : State) (sp : Space) :
    (setcsAccepted en rest s).store sp = s.store sp := by
  cases sp <;> rfl

theorem setcsCompleted_ilen (en : Bool) (rest : List HostAction) (link : List LinkInput) (s : State) :
    (setcsCompleted en rest link s).ilen = s.ilen := by
  simp [setcsCompleted]

theorem setcsCompleted_ibvalid (en : Bool) (rest : List HostAction) (link : List LinkInput)
    (s : State) : (setcsCompleted en rest link s).ibvalid = s.ibvalid := by
  simp [setcsCompleted]

theorem controlEvent_controlVerb (en : Bool) (r : LinkResult) :
    controlEvent (controlVerb en) r = if en then .ctlClear r else .ctlSet r := by
  cases en <;> rfl

theorem cssAfter_controlVerb (en : Bool) :
    cssAfter (controlVerb en) = if en then .asserted else .deasserted := by
  cases en <;> rfl

/-- R176: the two steps of a `SETCS` that fails. -/
theorem runSteps_setcsFailed (cfg : Parameters) {s : State} {en : Bool} {rest : List HostAction}
    {e : LinkError} {link : List LinkInput} (hstart : StartsSetcs s en rest)
    (hanswer : nextAnswer s.link = some (.fail e, link)) :
    ∃ t, runSteps cfg 2 s = .next t ∧
      ControlFailed (controlVerb en) e link (setcsAccepted en rest s) t := by
  have haccept : stepWith cfg s = .next (setcsAccepted en rest s) :=
    stepWith_startsSetcs cfg s en rest hstart
  obtain ⟨-, -, hblock⟩ := hstart
  obtain ⟨t, hstep, hfailed⟩ :=
    stepWith_controlFailed cfg (v := controlVerb en) (s := setcsAccepted en rest s) hblock rfl hanswer
  exact ⟨t, by rw [runSteps_succ _ _ _ _ haccept, runSteps_succ _ _ _ _ hstep, runSteps_zero], hfailed⟩

/-- Settles O12: with the answer `ok` the run ends in `setcsCompleted`, and with `fail(e)` it ends in what a failed
control-line request leaves in phase `CSONLY`. -/
theorem setcsOperation : Obligations.SetcsOperation := by
  intro cfg s en rest hstart
  refine ⟨fun d lrest hanswer => ?ok, fun e lrest hanswer => ?fail⟩
  case ok =>
    refine ⟨_, runSteps_setcsCompleted cfg hstart hanswer, rfl, rfl, rfl, rfl, rfl,
      cssAfter_controlVerb en, ?log, setcsCompleted_len en rest lrest s,
      setcsCompleted_ilen en rest lrest s, setcsCompleted_ibvalid en rest lrest s,
      buffersKept_of_store (setcsCompleted_store en rest lrest s), rfl, rfl⟩
    rw [← controlEvent_controlVerb]
    rfl
  case fail =>
    obtain ⟨t, hrun, hfailed⟩ := runSteps_setcsFailed cfg hstart hanswer
    have hrequest := hfailed.request_eq_none
    obtain ⟨hlen, hhost⟩ := hfailed.len_host_eq
    obtain ⟨hilen, hibvalid, hkept⟩ := hfailed.response_kept rfl
    obtain ⟨hcss, hlog, hlink, -, herr, hdone, hcode, hfph, hlerr, hphase, -⟩ := hfailed
    rw [controlEvent_controlVerb] at hlog
    refine ⟨t, hrun, hphase, hrequest, hdone, herr, hcode, hfph, hlerr, hcss, hlog, hlen, hilen,
      hibvalid, fun sp k => ?_, hhost, hlink⟩
    rw [hkept, setcsAccepted_store]

/-! ### A whole `TRANSACT` that fails (R173 to R175) -/

theorem toNat_transactAccepted_len {n : Nat} (hn : n ≤ Config.maxLen) (rest : List HostAction)
    (s : State) : (transactAccepted n rest s).len.toNat = n := by
  have hmax : Config.maxLen = 8191 := rfl
  rw [transactAccepted, beginTransact_len, BitVec.toNat_ofNat]
  omega

section

variable (cfg : Parameters) {s : State} {n : Nat} {rest : List HostAction} {e : LinkError}
  {link : List LinkInput} (hstart : StartsTransact s n rest)
include hstart

/-- R173: the two steps of a `TRANSACT` whose assert fails. -/
theorem runSteps_transact_assertFailed (hassert : nextAnswer s.link = some (.fail e, link)) :
    ∃ t, runSteps cfg 2 s = .next t ∧ ControlFailed .clear e link (transactAccepted n rest s) t := by
  have haccept : stepWith cfg s = .next (transactAccepted n rest s) :=
    stepWith_startsTransact cfg s n rest hstart
  obtain ⟨-, -, -, hblock⟩ := hstart
  obtain ⟨t, hstep, hfailed⟩ :=
    stepWith_controlFailed cfg (v := .clear) (s := transactAccepted n rest s) hblock rfl hassert
  exact ⟨t, by rw [runSteps_succ _ _ _ _ haccept, runSteps_succ _ _ _ _ hstep, runSteps_zero], hfailed⟩

/-- R175: the five steps of a `TRANSACT` whose de-assert fails. -/
theorem runSteps_transact_deassertFailed {d rx : List Byte} {link' link'' : List LinkInput}
    (hassert : nextAnswer s.link = some (.ok d, link'))
    (hexchange : nextAnswer link' = some (.ok rx, link'')) (hrx : rx.length = n)
    (hdeassert : nextAnswer link'' = some (.fail e, link)) :
    ∃ t, runSteps cfg 5 s = .next t ∧
      ControlFailed .set e link (exchangeReturned rx link'' (transactAtExchange n rest link' s)) t := by
  obtain ⟨hrun, -⟩ := runSteps_transactAtExchange cfg hstart hassert 2
  obtain ⟨-, -, hn, hblock⟩ := hstart
  have hblock' : blocking (transactAtExchange n rest link' s).host = true := by simpa using hblock
  have hxchg : stepWith cfg (transactAtExchange n rest link' s) =
      .next (exchangeReturned rx link'' (transactAtExchange n rest link' s)) :=
    stepWith_exchange_ok cfg _ link'' hblock' rx rfl (by simpa using hexchange)
      (hrx.trans (toNat_transactAtExchange_len rest link' s hn).symm)
  obtain ⟨t, hstep, hfailed⟩ := stepWith_controlFailed cfg (v := .set)
    (s := exchangeReturned rx link'' (transactAtExchange n rest link' s)) hblock' rfl hdeassert
  exact ⟨t, by rw [hrun, runSteps_succ _ _ _ _ hxchg, runSteps_succ _ _ _ _ hstep, runSteps_zero],
    hfailed⟩

end

section

variable (rx : List Byte) (link : List LinkInput) (s : State)

@[simp] theorem exchangeReturned_ob : (exchangeReturned rx link s).ob = s.ob := rfl
@[simp] theorem exchangeReturned_len : (exchangeReturned rx link s).len = s.len := rfl
@[simp] theorem exchangeReturned_host : (exchangeReturned rx link s).host = s.host := rfl
@[simp] theorem exchangeReturned_linkLog : (exchangeReturned rx link s).linkLog =
    s.linkLog ++ [.xchg s.txBytes s.bitcnt (.ok rx)] := rfl

end

/-- Settles O37: the failed request of phase `ASSERT`; the acceptance has left no specified byte in `TX`. -/
theorem transactFailsAtAssert : Obligations.TransactFailsAtAssert := by
  intro cfg s n rest e lrest hstart hlink
  obtain ⟨t, hrun, hfailed⟩ :=
    runSteps_transact_assertFailed cfg hstart (by rw [hlink]; rfl) (link := lrest)
  obtain ⟨-, -, hn, -⟩ := hstart
  have hresponse := hfailed.noResponse nofun
  rw [toNat_transactAccepted_len hn] at hresponse
  obtain ⟨-, hhost⟩ := hfailed.len_host_eq
  obtain ⟨hcss, hlog, hlink', -, -, -, hcode, hfph, hlerr, -, -, -, hob, htx, -⟩ := hfailed
  exact ⟨t, hrun, hresponse, hcode, hfph, hlerr, hcss, hob, htx, hlog, hhost, hlink'⟩

/-- Settles O38: the failed exchange writes no buffer but `IB`, and leaves `CSS` as the assert set it. -/
theorem transactFailsAtExchange : Obligations.TransactFailsAtExchange := by
  intro cfg s n rest d e lrest hstart hlink
  obtain ⟨t, hrun, hfailed⟩ :=
    runSteps_transact_exchangeFailed cfg hstart (by rw [hlink]; rfl) (link' := lrest) rfl
  obtain ⟨-, -, hn, -⟩ := hstart
  have hresponse := hfailed.noResponse
  rw [toNat_transactAtExchange_len _ _ _ hn] at hresponse
  obtain ⟨hcode, hfph, hlerr, -, -, -, -, hcss, -, -, -, -, -, hlog, hlink', -, hob, htx, hframe⟩ :=
    hfailed
  have hhost : t.host = rest := by rw [hframe, transactAtExchange_host]
  rw [transactAtExchange_linkLog, transactAtExchange_txBytes _ _ _ hn,
    transactAtExchange_bitcnt _ _ _ hn, List.append_assoc] at hlog
  refine ⟨t, hrun, hresponse, hcode, hfph, hlerr, hcss.trans (transactAtExchange_css ..), fun k => ?ob,
    fun k hk => ?tx, hlog, hhost, hlink'⟩
  case ob => rw [hob, store_ob, transactAtExchange_ob, store_ob]
  case tx => exact (htx k).trans ((transactAtExchange_tx_read _ _ _ hn k).trans (if_pos hk))

/-- Settles O39: the failed request of phase `DEASSERT`, after an exchange whose bytes it discards. -/
theorem transactFailsAtDeassert : Obligations.TransactFailsAtDeassert := by
  intro cfg s n rest d rx e lrest hstart hlink hrx
  obtain ⟨t, hrun, hfailed⟩ := runSteps_transact_deassertFailed cfg hstart (by rw [hlink]; rfl) rfl hrx
    (link := lrest) rfl
  obtain ⟨-, -, hn, -⟩ := hstart
  have hresponse := hfailed.noResponse nofun
  obtain ⟨-, hhost⟩ := hfailed.len_host_eq
  obtain ⟨hcss, hlog, hlink', -, -, -, hcode, hfph, hlerr, -, -, -, hob, -⟩ := hfailed
  rw [exchangeReturned_len, toNat_transactAtExchange_len _ _ _ hn] at hresponse
  rw [exchangeReturned_host, transactAtExchange_host] at hhost
  rw [exchangeReturned_linkLog, transactAtExchange_linkLog, transactAtExchange_txBytes _ _ _ hn,
    transactAtExchange_bitcnt _ _ _ hn, List.append_assoc, List.append_assoc] at hlog
  refine ⟨t, hrun, hresponse, hcode, hfph, hlerr, hcss, fun k => ?_, hlog, hhost, hlink'⟩
  rw [hob, store_ob, exchangeReturned_ob, transactAtExchange_ob, store_ob]

end Sys2Proof.Machine
end


section
/-! The family of spec/70_reset_and_hazards.md: what the reset input leaves, and what becomes of a request that it
abandons. -/

namespace Sys2Proof.Machine

/-! ### The abandoned request (R23, R197; log entry 15) -/

section

variable {s : State}

theorem abandoned_of_not_waiting (hw : s.waiting = false) : s.abandoned = [] := by
  simp [State.abandoned, hw]

theorem abandoned_of_control {v : ControlVerb} (hw : s.waiting = true) (hr : s.request = some v.instr) :
    s.abandoned = [controlEvent v .unanswered] := by
  cases v <;> simp [State.abandoned, hw, hr, ControlVerb.instr, controlEvent]

theorem abandoned_of_exchange (hw : s.waiting = true) (hp : s.phase = .exchange) :
    s.abandoned = [.xchg s.txBytes s.bitcnt .unanswered] := by
  simp [State.abandoned, hw, request_of_exchange hp]

end

/-- R197: the event that a reset adds to the history does not depend on what the HOST does or remembers. -/
theorem abandoned_noteReset (s : State) (rest : List HostAction) :
    (noteReset { s with host := rest }).abandoned = s.abandoned := rfl

/-! ### The reset input (R195, R196, R197) -/

theorem coreReset_linkLog_of_abandoned {s : State} {events : List LinkEvent} (rest : List HostAction)
    (h : s.abandoned = events) :
    (coreReset (noteReset { s with host := rest })).linkLog = s.linkLog ++ events := by
  rw [coreReset_linkLog, abandoned_noteReset, h, noteReset_linkLog]

theorem coreReset_bufferUnspecified (s : State) (sp : Space) : BufferUnspecified sp (coreReset s) := by
  intro k
  cases sp with
  | ob => rw [store_ob, coreReset_ob, Memory.read_nil]
  | ib => rw [store_ib, coreReset_ib, Memory.read_nil]
  | tx => rw [store_tx, coreReset_tx, Memory.read_nil]

theorem coreReset_line_of_not_busy {s : State} (hb : s.busy = false) : (coreReset s).line = s.line := by
  simp [hb]

/-- Settles O47: one step of the HOST, `step_reset`, whose only trace in the history is the abandoned request. -/
theorem resetInput : Obligations.ResetInput := by
  refine ⟨fun s rest hh => ⟨_, step_reset hh, rfl, rfl, rfl, rfl, rfl, rfl, rfl, rfl, rfl,
    coreReset_bufferUnspecified _, request_of_idle rfl, rfl,
    ?line, ?noRequest, ?clear, ?set, ?exchange, rfl, rfl⟩, fun _ _ => rfl⟩
  case line => exact fun hb => coreReset_line_of_not_busy (s := noteReset { s with host := rest }) hb
  case noRequest =>
    exact fun hw =>
      (coreReset_linkLog_of_abandoned rest (abandoned_of_not_waiting hw)).trans (List.append_nil _)
  case clear =>
    exact fun hw hr => coreReset_linkLog_of_abandoned rest (abandoned_of_control (v := .clear) hw hr)
  case set =>
    exact fun hw hr => coreReset_linkLog_of_abandoned rest (abandoned_of_control (v := .set) hw hr)
  case exchange =>
    exact fun hw hp => coreReset_linkLog_of_abandoned rest (abandoned_of_exchange hw hp)

end Sys2Proof.Machine
end


section
/-! The decoder and the encoder of spec/30_encoding.md, in both directions, and the instruction that a step
runs. -/

namespace Sys2Proof.Machine

/-! ### Decode of encode (R73, R75, R76) -/

/-- Settles O1: the round trip of each constructor. -/
theorem decodeOfEncode : Obligations.DecodeOfEncode := by
  intro i
  cases i with
  | rev8 b => exact Laws.RoundTrip.rev8 b
  | setcs en => exact Laws.RoundTrip.setcs en
  | transact n => exact Laws.RoundTrip.transact n
  | ctlclr => exact Laws.RoundTrip.ctlclr
  | ctlset => exact Laws.RoundTrip.ctlset
  | xchg bc => exact Laws.RoundTrip.xchg bc

/-! ### Encode of decode (R73, R75, R76) -/

/-- R71: a command word is its `op` above its argument. -/
theorem command_eq_append (w : CommandWord) : w.extractLsb' 13 3 ++ w.extractLsb' 0 13 = w :=
  (BitVec.extractLsb'_append_extractLsb'_eq_extractLsb' rfl).trans BitVec.extractLsb'_eq_self

/-- R72: a link request is its `kind` above its bit count. -/
theorem request_eq_append (r : RequestWord) : r.extractLsb' 16 2 ++ r.extractLsb' 0 16 = r :=
  (BitVec.extractLsb'_append_extractLsb'_eq_extractLsb' rfl).trans BitVec.extractLsb'_eq_self

/-- R75: `SETCS en` by its two fields. -/
theorem encodeSetcs_eq_append (en : Bool) :
    encodeSetcs en = 1#3 ++ (BitVec.ofBool en).setWidth 13 := by
  cases en <;> rfl

/-- A word whose bits above the lowest are 0 is its lowest bit. -/
theorem setWidth_ofBool_getLsbD_zero {x : BitVec 13} (h : x >>> 1 = 0#13) :
    (BitVec.ofBool (x.getLsbD 0)).setWidth 13 = x := by
  refine BitVec.eq_of_getLsbD_eq fun i hi => ?_
  cases i with
  | zero => simp
  | succ i =>
    have hzero : (x >>> 1).getLsbD i = false := by rw [h]; exact BitVec.getLsbD_zero
    rw [BitVec.getLsbD_ushiftRight, Nat.add_comm] at hzero
    simp [hzero]

/-- R75: a command word that decodes, with the encoding of what it stands for. -/
theorem encode_of_decodeCommand {w : CommandWord} {i : Instr} (h : decodeCommand w = .ok i) :
    encode i = .c w ∧ WellFormed i = true := by
  simp only [decodeCommand] at h
  split at h
  next hop =>
    split at h
    next harg =>
      obtain rfl := Except.ok.inj h
      refine ⟨congrArg PortWord.c ?_, rfl⟩
      rw [encodeSetcs_eq_append, setWidth_ofBool_getLsbD_zero harg, ← hop, command_eq_append]
    next => cases h
  next =>
    split at h
    next hop =>
      obtain rfl := Except.ok.inj h
      refine ⟨congrArg PortWord.c ?_, decide_eq_true (len_le _)⟩
      rw [encodeTransact, BitVec.ofNat_toNat, BitVec.setWidth_eq, ← hop, command_eq_append]
    next => cases h

/-- R76: a link request that decodes, with the encoding of what it stands for. -/
theorem encode_of_decodeRequest {r : RequestWord} {i : Instr} (h : decodeRequest r = .ok i) :
    encode i = .l r ∧ WellFormed i = true := by
  have hword {kind : BitVec 2} {bc : BitVec 16} (hkind : r.extractLsb' 16 2 = kind)
      (hbc : r.extractLsb' 0 16 = bc) : kind ++ bc = r := by
    rw [← hkind, ← hbc, request_eq_append]
  simp only [decodeRequest] at h
  split at h
  next hkind =>
    split at h
    next hbc =>
      obtain rfl := Except.ok.inj h
      exact ⟨congrArg PortWord.l (hword hkind hbc), rfl⟩
    next => cases h
  next =>
    split at h
    next hkind =>
      split at h
      next hbc =>
        obtain rfl := Except.ok.inj h
        exact ⟨congrArg PortWord.l (hword hkind hbc), rfl⟩
      next => cases h
    next =>
      split at h
      next hkind =>
        split at h
        next hwhole =>
          obtain rfl := Except.ok.inj h
          exact ⟨congrArg PortWord.l (hword hkind rfl), hwhole⟩
        next => cases h
      next => cases h

/-- Settles O2: by the port on which the word stands. -/
theorem encodeOfDecode : Obligations.EncodeOfDecode := by
  intro w i h
  cases w with
  | p b =>
    obtain rfl := Except.ok.inj h
    exact ⟨rfl, rfl⟩
  | c w => exact encode_of_decodeCommand h
  | l r => exact encode_of_decodeRequest h

/-- Settles O3: each listed word is the encoding of the operation it stands for, so O1 decodes it. -/
theorem listedWordsDecode : Obligations.ListedWordsDecode :=
  ⟨decodeOfEncode (.setcs false) rfl, decodeOfEncode (.setcs true) rfl,
    decodeOfEncode (.transact 0) rfl, decodeOfEncode (.transact 4) rfl,
    decodeOfEncode (.transact 8191) rfl, decodeOfEncode .ctlclr rfl, decodeOfEncode .ctlset rfl,
    decodeOfEncode (.xchg 0) rfl, decodeOfEncode (.xchg 32) rfl, decodeOfEncode (.xchg 65528) rfl,
    decodeOfEncode (.rev8 0x9F) rfl⟩

/-! ### The instruction that stands on a port (R25, R28, R58, R125) -/

/-- R125: the word on the link port decodes to the operation that the phase issues. -/
theorem request_of_decode {s : State} {r : RequestWord} {i : Instr} (hr : s.requestWord = some r)
    (hd : decode (.l r) = .ok i) : s.request = some i := by
  cases hq : s.request with
  | none => simp [requestWord_none s hq] at hr
  | some j =>
    obtain ⟨r', hr', hd'⟩ := decode_requestWord s j hq
    obtain rfl : r' = r := Option.some.inj (hr'.symm.trans hr)
    rw [Except.ok.inj (hd'.symm.trans hd)]

/-- R7: an action `yield` leaves the step to the CORE and the LINK. -/
theorem stepWith_yield (cfg : Parameters) {s : State} {rest : List HostAction}
    (hh : s.host = .yield :: rest) : stepWith cfg s = coreStep { s with host := rest } := by
  rw [stepWith_of_acts cfg s _ rest hh rfl]
  exact outcome_coreFetch _

/-- Settles O5: each port's word decodes to the instruction that `fetch` finds there. -/
theorem stepRunsDecodedInstruction : Obligations.StepRunsDecodedInstruction := by
  refine ⟨?command, ?codec, ?waiting, ?yield⟩
  case command =>
    intro s w i rest hp hh hd
    exact stepWith_command _ s w i rest hp hh hd
  case codec =>
    intro s b i rest hh hd
    obtain rfl := Except.ok.inj hd
    exact step_codec hh
  case waiting =>
    intro s r i hw hr hd
    exact step_of_request hw (request_of_decode hr hd)
  case yield =>
    intro s r i rest hh hr hd
    have hrequest : ({ s with host := rest } : State).request = some i := request_of_decode hr hd
    rw [step_eq, stepWith_yield _ hh, coreStep, hrequest]

end Sys2Proof.Machine
end


section
/-! The properties that every step keeps (spec/10_state.md, spec/70_reset_and_hazards.md). A step is taken apart
once, in `StepKeeps.stepWith`; each part of the invariant then says what each thing that can happen does to it. -/

namespace Sys2Proof.Machine

/-! ### What a step can do to the core -/

/-- The HOST's own fields and the levels on its ports may have changed; the core, the line, the history and the
LINK are as before. -/
def RegistersKept (s t : State) : Prop :=
  t = { s with
    host := t.host, hostState := t.hostState, device := t.device, stage := t.stage,
    recovery := t.recovery, emitted := t.emitted, revIn := t.revIn, rdata := t.rdata,
    draws := t.draws }

theorem registersKept_host (s : State) (acts : List HostAction) :
    RegistersKept s { s with host := acts } := rfl

theorem registersKept_hostObRead (addr : Length) (s : State) :
    RegistersKept s (hostObRead addr s) := by
  unfold hostObRead
  split <;> rfl

/-- A property that every step keeps, whatever the configuration: said for each thing that a step can do to the
core. -/
structure StepKeeps (P : State → Prop) : Prop where
  registers : ∀ {s t : State}, RegistersKept s t → P s → P t
  core : ∀ {s t : State}, CoreCase s t → P s → P t
  obWrite : ∀ (addr : Length) (data : Byte) {s : State}, s.phase = .idle → P s →
    P (hostObWrite addr data s)
  illegal : ∀ {s : State}, s.phase = .idle → P s → P (illegalCommand s)
  setcs : ∀ (en : Bool) {s : State}, s.phase = .idle → P s → P (beginSetcs en s)
  transact : ∀ (n : Nat) {s : State}, s.phase = .idle → P s → P (beginTransact n s)
  reset : ∀ {s : State}, P s → P (coreReset s)

section

variable {P : State → Prop} (h : StepKeeps P) {cfg : Parameters} {s t : State}
include h

theorem StepKeeps.hostCase {a : HostAction} (hcase : HostCase cfg s a t)
    (hmay : hostMay a s.phase = true) (hs : P s) : P t := by
  have hidle : ∀ w, a = .command w → s.phase = .idle := by
    rintro w rfl
    simpa [hostMay] using hmay
  have hnote : ∀ w, P (noteCommand w s) := fun w => h.registers (t := noteCommand w s) rfl hs
  cases hcase with
  | obWrite addr data => exact h.obWrite addr data (by simpa [hostMay] using hmay) hs
  | obRead addr => exact h.registers (registersKept_hostObRead addr s) hs
  | illegal w => exact h.illegal (hidle w rfl) (hnote w)
  | setcs w en => exact h.setcs en (hidle w rfl) (hnote w)
  | transact w n => exact h.transact n (hidle w rfl) (hnote w)
  | reset => exact h.reset (h.registers (t := noteReset s) rfl hs)
  | yield t hcore => exact h.core hcore hs
  | session a t _ _ heq => exact h.registers (by rw [RegistersKept, heq]) hs
  | ibRead | ibReadNothing | readStatus | codec => exact h.registers rfl hs

theorem StepKeeps.stepWith (hstep : stepWith cfg s = .next t) (hs : P s) : P t := by
  obtain ⟨a, rest, -, hmay, hcase⟩ | ⟨-, hcase⟩ := stepWith_cases hstep
  · exact h.hostCase hcase hmay (h.registers (registersKept_host s rest) hs)
  · exact h.core hcase hs

end

/-- A run whose end is known has a first step and a run from there. -/
theorem runSteps_succ_next {cfg : Parameters} {n : Nat} {s t : State}
    (h : runSteps cfg (n + 1) s = .next t) :
    ∃ u, stepWith cfg s = .next u ∧ runSteps cfg n u = .next t := by
  have hstep : (coreWith cfg).step s = stepWith cfg s := rfl
  cases hs : stepWith cfg s with
  | next u => exact ⟨u, rfl, (runSteps_succ cfg n s u hs).symm.trans h⟩
  | fault r => simp [runSteps, Host.Core.run, hstep, hs] at h
  | refused r => simp [runSteps, Host.Core.run, hstep, hs] at h

/-- What every step keeps, every run keeps. -/
theorem StepKeeps.runSteps {P : State → Prop} (h : StepKeeps P) {cfg : Parameters} {n : Nat}
    {s t : State} (hrun : runSteps cfg n s = .next t) (hs : P s) : P t := by
  induction n generalizing s with
  | zero =>
    obtain rfl : s = t := Host.Outcome.next.inj hrun
    exact hs
  | succ n ih =>
    obtain ⟨u, hstep, hrest⟩ := runSteps_succ_next hrun
    exact ih hrest (h.stepWith hstep hs)

/-! ### The answers to a control-line request, by phase (R102, R103) -/

section

variable {v : ControlVerb} {s : State} (hr : s.request = some v.instr)
include hr

theorem controlOk_cases (ev : LinkEvent) (rest : List LinkInput) :
    (s.phase = .assert ∧ v = .clear ∧ controlOk v (answered ev rest s) =
      { lineMoved v (answered ev rest s) with phase := .revOut }) ∨
    (s.phase = .deassert ∧ v = .set ∧ controlOk v (answered ev rest s) =
      { lineMoved v (answered ev rest s) with phase := .revIn }) ∨
    (s.phase = .csOnly ∧
      controlOk v (answered ev rest s) = complete (lineMoved v (answered ev rest s))) := by
  obtain ⟨rfl, hp⟩ | ⟨rfl, hp⟩ | ⟨hp, -⟩ := request_control s v hr
  · exact .inl ⟨hp, rfl, by simp [controlOk, hp]⟩
  · exact .inr (.inl ⟨hp, rfl, by simp [controlOk, hp]⟩)
  · exact .inr (.inr ⟨hp, by simp [controlOk, hp]⟩)

theorem controlFail_cases (ev : LinkEvent) (rest : List LinkInput) (e : LinkError) :
    (∃ c, c ≠ .eNone ∧ s.phase = failPhase c ∧ s.phase ≠ .csOnly ∧
      controlFail e (answered ev rest s) = failTransact c e (lineLost (answered ev rest s))) ∨
    (s.phase = .csOnly ∧
      controlFail e (answered ev rest s) = raiseErr false .eCtl e (lineLost (answered ev rest s))) := by
  obtain ⟨-, hp⟩ | ⟨-, hp⟩ | ⟨hp, -⟩ := request_control s v hr
  · exact .inl ⟨.eCsAssert, nofun, hp, by simp [hp], by simp [controlFail, hp]⟩
  · exact .inl ⟨.eCsDeassert, nofun, hp, by simp [hp], by simp [controlFail, hp]⟩
  · exact .inr ⟨hp, by simp [controlFail, hp]⟩

end

/-- R16: an idle core does nothing of its own. -/
theorem CoreCase.eq_of_idle {s t : State} (h : CoreCase s t) (hp : s.phase = .idle) : t = s := by
  have hr : s.request = none := request_of_idle hp
  cases h with
  | idle => rfl
  | revOut hp' => simp [hp] at hp'
  | revIn hp' => simp [hp] at hp'
  | wait hr' => simp [hr] at hr'
  | controlOk v d rest hr' => simp [hr] at hr'
  | controlFail v e rest hr' => simp [hr] at hr'
  | exchangeOk rx rest hp' => simp [hp] at hp'
  | exchangeFail e rest hp' => simp [hp] at hp'

/-! ### The buffers (R40, R41) -/

theorem stepKeeps_buffersWf : StepKeeps BuffersWf where
  registers h hs := by rw [h]; exact hs
  core {s t} h hs := by
    obtain ⟨hob, hib, htx⟩ := hs
    cases h with
    | idle => exact ⟨hob, hib, htx⟩
    | revOut => exact ⟨by simpa using hob, by simpa using hib, revOutPhase_tx_wf s htx⟩
    | revIn => exact ⟨by simpa using hob, revInPhase_ib_wf s hib, by simpa using htx⟩
    | wait => exact ⟨hob, hib, htx⟩
    | controlOk v d rest hr =>
      obtain ⟨-, -, heq⟩ | ⟨-, -, heq⟩ | ⟨-, heq⟩ := controlOk_cases hr _ rest <;> rw [heq] <;>
        exact ⟨hob, hib, htx⟩
    | controlFail v e rest hr =>
      obtain ⟨c, -, -, -, heq⟩ | ⟨-, heq⟩ := controlFail_cases hr _ rest e <;> rw [heq]
      · exact ⟨hob, rfl, htx⟩
      · exact ⟨hob, hib, htx⟩
    | exchangeOk rx => exact ⟨hob, Memory.wf_writeAll s.ib 0 rx hib, htx⟩
    | exchangeFail => exact ⟨hob, rfl, htx⟩
  obWrite addr data s _ hs := by
    obtain ⟨hob, hib, htx⟩ := hs
    exact ⟨Memory.wf_write s.ob addr.toNat data hob, hib, htx⟩
  illegal _ hs := hs
  setcs _ _ _ hs := hs
  transact _ _ _ hs := ⟨hs.1, rfl, rfl⟩
  reset _ := ⟨rfl, rfl, rfl⟩

/-! ### The flags (R17) -/

theorem Running.flagsExclusive {s : State} (h : Running s) : FlagsExclusive s := by
  obtain ⟨hdone, herr⟩ := h
  exact ⟨by simp [hdone], fun _ => ⟨hdone, herr⟩⟩

theorem flagsExclusive_of_idle {s : State} (hp : s.phase = .idle) (h : ¬(s.done = true ∧ s.err = true)) :
    FlagsExclusive s :=
  ⟨h, fun hb => absurd hp ((busy_iff s).mp hb)⟩

theorem FlagsExclusive.running {s : State} (h : FlagsExclusive s) (hp : s.phase ≠ .idle) : Running s :=
  h.2 ((busy_iff s).mpr hp)

theorem stepKeeps_flagsExclusive : StepKeeps FlagsExclusive where
  registers h hs := by rw [h]; exact hs
  core {s t} h hs := by
    cases h with
    | idle => exact hs
    | wait => exact hs
    | revOut hp =>
      have hrun : Running s := hs.running (by simp [hp])
      rw [revOutPhase_eq]
      exact Running.flagsExclusive hrun
    | revIn hp =>
      obtain ⟨-, herr⟩ := hs.running (by simp [hp])
      exact flagsExclusive_of_idle (revInPhase_phase s) (by simp [herr])
    | controlOk v d rest hr =>
      obtain ⟨hp, -, heq⟩ | ⟨hp, -, heq⟩ | ⟨hp, heq⟩ := controlOk_cases hr _ rest <;>
        have hrun : Running s := hs.running (by simp [hp]) <;> rw [heq]
      · exact Running.flagsExclusive hrun
      · exact Running.flagsExclusive hrun
      · exact flagsExclusive_of_idle rfl (by simp [hrun.2])
    | controlFail v e rest hr =>
      obtain ⟨c, -, -, -, heq⟩ | ⟨-, heq⟩ := controlFail_cases hr _ rest e <;> rw [heq] <;>
        exact flagsExclusive_of_idle rfl (by simp)
    | exchangeOk rx rest hp =>
      have hrun : Running s := hs.running (by simp [hp])
      exact Running.flagsExclusive hrun
    | exchangeFail => exact flagsExclusive_of_idle rfl (by simp)
  obWrite _ _ _ _ hs := hs
  illegal _ _ := flagsExclusive_of_idle rfl nofun
  setcs _ _ _ _ := Running.flagsExclusive ⟨rfl, rfl⟩
  transact _ _ _ _ := Running.flagsExclusive ⟨rfl, rfl⟩
  reset _ := Running.flagsExclusive ⟨rfl, rfl⟩

/-- Settles O50: the flags are exclusive at reset, and every step keeps them so. -/
theorem flagsExclusiveAlways : Obligations.FlagsExclusiveAlways :=
  ⟨Running.flagsExclusive ⟨rfl, rfl⟩,
    fun _ _ _ _ hs hrun => stepKeeps_flagsExclusive.runSteps hrun hs⟩

/-! ### The failure record (R18, R170) -/

theorem failureRecorded_of_none {s : State} (herr : s.err = false) (hcode : s.ecode = .eNone)
    (hfph : s.fph = .idle) : FailureRecorded s :=
  ⟨fun _ => ⟨hcode, hfph⟩, by simp [herr]⟩

theorem failureRecorded_raiseErr (b : Bool) {c : ECode} (e : LinkError) {s : State} (hc : c ≠ .eNone)
    (hp : s.phase = failPhase c) : FailureRecorded (raiseErr b c e s) :=
  ⟨by simp, fun _ => ⟨hc, hp⟩⟩

theorem stepKeeps_failureRecorded : StepKeeps FailureRecorded where
  registers h hs := by rw [h]; exact hs
  core {s t} h hs := by
    cases h with
    | idle => exact hs
    | wait => exact hs
    | revOut => rw [revOutPhase_eq]; exact hs
    | revIn => rw [revInPhase_eq]; exact hs
    | controlOk v d rest hr =>
      obtain ⟨-, -, heq⟩ | ⟨-, -, heq⟩ | ⟨-, heq⟩ := controlOk_cases hr _ rest <;> rw [heq] <;> exact hs
    | controlFail v e rest hr =>
      obtain ⟨c, hc, hp, -, heq⟩ | ⟨hp, heq⟩ := controlFail_cases hr _ rest e <;> rw [heq]
      · exact failureRecorded_raiseErr true e hc hp
      · exact failureRecorded_raiseErr false e nofun hp
    | exchangeOk => exact hs
    | exchangeFail e rest hp => exact failureRecorded_raiseErr true e (c := .eXchg) nofun hp
  obWrite _ _ _ _ hs := hs
  illegal {s} hp _ :=
    failureRecorded_raiseErr false (Config.freeLerr (clearResult s).draws) (c := .eCmd)
      (s := clearResult s) nofun hp
  setcs _ _ _ _ := failureRecorded_of_none rfl rfl rfl
  transact _ _ _ _ := failureRecorded_of_none rfl rfl rfl
  reset _ := failureRecorded_of_none rfl rfl rfl

/-! ### The response (R12, R17, R19) -/

theorem responseHeld_of_none {s : State} (hvalid : s.ibvalid = false) (hilen : s.ilen = 0) :
    ResponseHeld s :=
  ⟨by simp [hvalid], fun _ => hilen⟩

/-- R12: while a `TRANSACT` is in a phase of its own there is no response. -/
theorem ResponseHeld.none_in_phase {s : State} (h : ResponseHeld s) (hidle : s.phase ≠ .idle)
    (hcs : s.phase ≠ .csOnly) : s.ibvalid = false ∧ s.ilen = 0 := by
  have hvalid : s.ibvalid = false := by
    by_contra hne
    obtain ⟨hp, -⟩ := h.1 (by simpa using hne)
    exact hp.elim hidle hcs
  exact ⟨hvalid, h.2 hvalid⟩

/-- A step between two phases of a `SETCS`, or to one from `IDLE`, keeps the response. -/
theorem ResponseHeld.of_kept {s t : State} (h : ResponseHeld s) (hp : t.phase = .idle ∨ t.phase = .csOnly)
    (hvalid : t.ibvalid = s.ibvalid) (hilen : t.ilen = s.ilen) (hib : t.ib = s.ib) : ResponseHeld t := by
  rw [ResponseHeld, hvalid, hilen, hib]
  exact ⟨fun hv => ⟨hp, (h.1 hv).2⟩, h.2⟩

theorem revInPhase_filled (s : State) : (revInPhase s).ib.filled s.len.toNat = true := by
  rw [Memory.filled_iff]
  intro k hk
  rw [revInPhase_ib, if_pos hk]
  rfl

theorem stepKeeps_responseHeld : StepKeeps ResponseHeld where
  registers h hs := by rw [h]; exact hs
  core {s t} h hs := by
    cases h with
    | idle => exact hs
    | wait => exact hs
    | revOut hp =>
      obtain ⟨hvalid, hilen⟩ := hs.none_in_phase (by simp [hp]) (by simp [hp])
      rw [revOutPhase_eq]
      exact responseHeld_of_none hvalid hilen
    | revIn => exact ⟨fun _ => ⟨.inl rfl, revInPhase_filled s⟩, nofun⟩
    | controlOk v d rest hr =>
      obtain ⟨hp, -, heq⟩ | ⟨hp, -, heq⟩ | ⟨hp, heq⟩ := controlOk_cases hr _ rest <;> rw [heq]
      · obtain ⟨hvalid, hilen⟩ := hs.none_in_phase (by simp [hp]) (by simp [hp])
        exact responseHeld_of_none hvalid hilen
      · obtain ⟨hvalid, hilen⟩ := hs.none_in_phase (by simp [hp]) (by simp [hp])
        exact responseHeld_of_none hvalid hilen
      · exact hs.of_kept (.inl rfl) rfl rfl rfl
    | controlFail v e rest hr =>
      obtain ⟨c, -, -, -, heq⟩ | ⟨-, heq⟩ := controlFail_cases hr _ rest e <;> rw [heq]
      · exact responseHeld_of_none rfl rfl
      · exact hs.of_kept (.inl rfl) rfl rfl rfl
    | exchangeOk rx rest hp =>
      obtain ⟨hvalid, hilen⟩ := hs.none_in_phase (by simp [hp]) (by simp [hp])
      exact responseHeld_of_none hvalid hilen
    | exchangeFail => exact responseHeld_of_none rfl rfl
  obWrite _ _ _ _ hs := hs
  illegal _ hs := hs.of_kept (.inl rfl) rfl rfl rfl
  setcs _ _ _ hs := hs.of_kept (.inr rfl) rfl rfl rfl
  transact _ _ _ _ := responseHeld_of_none rfl rfl
  reset _ := responseHeld_of_none rfl rfl

/-! ### The outbound array (R20, R119) -/

theorem outboundReversed_of_ne {s : State} (h : s.phase ≠ .exchange) : OutboundReversed s :=
  fun hp => absurd hp h

theorem outboundReversed_revOutPhase (s : State) : OutboundReversed (revOutPhase s) := by
  intro _ k hk
  rw [revOutPhase_len] at hk
  rw [revOutPhase_tx, if_pos hk, revOutPhase_eq]
  rfl

theorem stepKeeps_outboundReversed : StepKeeps OutboundReversed where
  registers h hs := by rw [h]; exact hs
  core {s t} h hs := by
    cases h with
    | idle => exact hs
    | wait => exact hs
    | revOut => exact outboundReversed_revOutPhase s
    | revIn => exact outboundReversed_of_ne nofun
    | controlOk v d rest hr =>
      obtain ⟨-, -, heq⟩ | ⟨-, -, heq⟩ | ⟨-, heq⟩ := controlOk_cases hr _ rest <;> rw [heq] <;>
        exact outboundReversed_of_ne nofun
    | controlFail v e rest hr =>
      obtain ⟨c, -, -, -, heq⟩ | ⟨-, heq⟩ := controlFail_cases hr _ rest e <;> rw [heq] <;>
        exact outboundReversed_of_ne nofun
    | exchangeOk => exact outboundReversed_of_ne nofun
    | exchangeFail => exact outboundReversed_of_ne nofun
  obWrite addr data s hp _ := outboundReversed_of_ne (by rw [hostObWrite, writeByte_ob]; simp [hp])
  illegal _ _ := outboundReversed_of_ne nofun
  setcs _ _ _ _ := outboundReversed_of_ne nofun
  transact _ _ _ _ := outboundReversed_of_ne nofun
  reset _ := outboundReversed_of_ne nofun

/-! ### `CSS` in the phases of a `TRANSACT` (R117, R119, R121) -/

theorem selectedInPhase_of_asserted {s : State} (hcss : s.css = .asserted) (hp : s.phase ≠ .revIn) :
    SelectedInPhase s :=
  ⟨fun _ => hcss, fun h => absurd h hp⟩

/-- In the other phases nothing is said of `CSS`. -/
theorem selectedInPhase_of_phase {s : State}
    (hp : s.phase = .idle ∨ s.phase = .assert ∨ s.phase = .csOnly) : SelectedInPhase s := by
  obtain hp | hp | hp := hp <;> simp [SelectedInPhase, hp]

theorem stepKeeps_selectedInPhase : StepKeeps SelectedInPhase where
  registers h hs := by rw [h]; exact hs
  core {s t} h hs := by
    cases h with
    | idle => exact hs
    | wait => exact hs
    | revOut hp =>
      have hcss : (revOutPhase s).css = .asserted := (revOutPhase_css s).trans (hs.1 (.inl hp))
      exact selectedInPhase_of_asserted hcss nofun
    | revIn => exact selectedInPhase_of_phase (.inl rfl)
    | controlOk v d rest hr =>
      obtain ⟨-, hv, heq⟩ | ⟨-, hv, heq⟩ | ⟨-, heq⟩ := controlOk_cases hr _ rest <;> rw [heq]
      · exact selectedInPhase_of_asserted (congrArg cssAfter hv) nofun
      · exact ⟨nofun, fun _ => congrArg cssAfter hv⟩
      · exact selectedInPhase_of_phase (.inl rfl)
    | controlFail v e rest hr =>
      obtain ⟨c, -, -, -, heq⟩ | ⟨-, heq⟩ := controlFail_cases hr _ rest e <;> rw [heq] <;>
        exact selectedInPhase_of_phase (.inl rfl)
    | exchangeOk rx rest hp =>
      have hcss : s.css = .asserted := hs.1 (.inr (.inl hp))
      exact selectedInPhase_of_asserted hcss nofun
    | exchangeFail => exact selectedInPhase_of_phase (.inl rfl)
  obWrite _ _ _ _ hs := hs
  illegal _ _ := selectedInPhase_of_phase (.inl rfl)
  setcs _ _ _ _ := selectedInPhase_of_phase (.inr (.inr rfl))
  transact _ _ _ _ := selectedInPhase_of_phase (.inr (.inl rfl))
  reset _ := selectedInPhase_of_phase (.inl rfl)

/-! ### `CSS`, the history and `LINE` (R15, R23) -/

theorem shadowTrue_of_unknown {s : State} (h : s.css = .unknown) : ShadowTrue s := by
  simp [ShadowTrue, lineOf, h]

/-- R104, R108: `CSS` and `LINE` are what a successful request leaves. -/
theorem shadowTrue_of_moved {s : State} {v : ControlVerb} (hcss : s.css = cssAfter v)
    (hline : s.line = lineAfter v) (hlog : lastControl s.linkLog = some (controlEvent v (.ok []))) :
    ShadowTrue s := by
  rw [ShadowTrue, hcss, hline, hlog]
  cases v with
  | clear => exact ⟨fun _ => rfl, nofun, rfl⟩
  | set => exact ⟨nofun, fun _ => rfl, lineAfter_set_ne⟩

theorem ShadowTrue.of_kept {s t : State} (h : ShadowTrue s) (hcss : t.css = s.css) (hline : t.line = s.line)
    (hlog : lastControl t.linkLog = lastControl s.linkLog) : ShadowTrue t := by
  rw [ShadowTrue, hcss, hline, hlog]
  exact h

theorem lastControl_controlEvent (l : List LinkEvent) (v : ControlVerb) (r : LinkResult) :
    lastControl (l ++ [controlEvent v r]) = some (controlEvent v r) := by
  rw [lastControl_append]
  cases v <;> rfl

theorem stepKeeps_shadowTrue : StepKeeps ShadowTrue where
  registers h hs := by rw [h]; exact hs
  core {s t} h hs := by
    cases h with
    | idle => exact hs
    | wait => exact hs
    | revOut => rw [revOutPhase_eq]; exact hs
    | revIn => rw [revInPhase_eq]; exact hs
    | controlOk v d rest hr =>
      have hlog := lastControl_controlEvent s.linkLog v (.ok [])
      obtain ⟨-, -, heq⟩ | ⟨-, -, heq⟩ | ⟨-, heq⟩ := controlOk_cases hr _ rest <;> rw [heq] <;>
        exact shadowTrue_of_moved rfl rfl hlog
    | controlFail v e rest hr =>
      obtain ⟨c, -, -, -, heq⟩ | ⟨-, heq⟩ := controlFail_cases hr _ rest e <;> rw [heq] <;>
        exact shadowTrue_of_unknown rfl
    | exchangeOk => exact hs.of_kept rfl rfl (lastControl_append _ _)
    | exchangeFail => exact hs.of_kept rfl rfl (lastControl_append _ _)
  obWrite _ _ _ _ hs := hs
  illegal _ hs := hs
  setcs _ _ _ hs := hs
  transact _ _ _ hs := hs
  reset _ := shadowTrue_of_unknown rfl

/-! ### The outstanding request (R134) -/

theorem waitingHasRequest_of_not {s : State} (h : s.waiting = false) : WaitingHasRequest s := by
  simp [WaitingHasRequest, h]

theorem WaitingHasRequest.not_waiting {s : State} (h : WaitingHasRequest s) (hr : s.request = none) :
    s.waiting = false := by
  by_contra hne
  simpa [hr] using h (by simpa using hne)

/-- R134: nothing is outstanding in a phase that issues no request. -/
theorem stepKeeps_waitingHasRequest : StepKeeps WaitingHasRequest where
  registers h hs := by rw [h]; exact hs
  core {s t} h hs := by
    cases h with
    | idle => exact hs
    | revOut hp =>
      rw [revOutPhase_eq]
      exact waitingHasRequest_of_not (hs.not_waiting (by simp [State.request, hp]))
    | revIn hp =>
      rw [revInPhase_eq]
      exact waitingHasRequest_of_not (hs.not_waiting (by simp [State.request, hp]))
    | wait hr => exact fun _ => hr
    | controlOk v d rest hr =>
      obtain ⟨-, -, heq⟩ | ⟨-, -, heq⟩ | ⟨-, heq⟩ := controlOk_cases hr _ rest <;> rw [heq] <;>
        exact waitingHasRequest_of_not rfl
    | controlFail v e rest hr =>
      obtain ⟨c, -, -, -, heq⟩ | ⟨-, heq⟩ := controlFail_cases hr _ rest e <;> rw [heq] <;>
        exact waitingHasRequest_of_not rfl
    | exchangeOk => exact waitingHasRequest_of_not rfl
    | exchangeFail => exact waitingHasRequest_of_not rfl
  obWrite _ _ _ _ hs := hs
  illegal hp hs := waitingHasRequest_of_not (hs.not_waiting (request_of_idle hp))
  setcs _ _ hp hs := waitingHasRequest_of_not (hs.not_waiting (request_of_idle hp))
  transact _ _ hp hs := waitingHasRequest_of_not (hs.not_waiting (request_of_idle hp))
  reset _ := waitingHasRequest_of_not rfl

/-! ### The HOST's session (R24, R146, R147, R153, R154) -/

/-- R55: the actions of the session sequences wait for an idle core. -/
theorem idle_of_sessionAction {a : HostAction} {p : Phase} (hof : ofSession a = true)
    (hmay : hostMay a p = true) : p = .idle := by
  cases a with
  | session | boot | ready | start | check | emit | close => simpa [hostMay] using hmay
  | obWrite | obRead | ibRead | readStatus | codec | command | reset | yield => cases hof

section

variable {cfg : Parameters} {s t : State}

/-- Outside `Closed` the session's part of the invariant looks at the HOST's state, device and stage only. -/
theorem SessionHeld.of_kept (h : SessionHeld cfg s) (hopen : ∀ b, s.hostState ≠ .closed b)
    (hstate : t.hostState = s.hostState) (hdevice : t.device = s.device) (hstage : t.stage = s.stage) :
    SessionHeld cfg t := by
  rw [SessionHeld, hstate, hdevice, hstage]
  rw [SessionHeld] at h
  cases hs : s.hostState with
  | closed b => exact absurd hs (hopen b)
  | idle | deviceReady | oneShotTransfer | interactiveLoop => rw [hs] at h; exact h

/-- In `Closed` the HOST has nothing to do. -/
theorem SessionHeld.not_closed (h : SessionHeld cfg s) {a : HostAction} {rest : List HostAction}
    (hh : s.host = a :: rest) (b : Bool) : s.hostState ≠ .closed b := by
  intro hs
  simp [SessionHeld, hs, hh] at h

/-- R154: every state of the session but `Closed` can be left in failure. -/
theorem SessionHeld.failSession (h : SessionHeld cfg s) (hopen : ∀ b, s.hostState ≠ .closed b) :
    SessionHeld cfg (failSession s) := by
  obtain ⟨hcfg, hmatch⟩ := h
  refine ⟨hcfg, ?_⟩
  rw [failSession_hostState, failSession_device, failSession_stage]
  cases hs : s.hostState with
  | closed b => exact absurd hs (hopen b)
  | idle => rw [hs] at hmatch; exact hmatch.imp (⟨·.1, .inr rfl⟩) (⟨·.1, .inr rfl⟩)
  | deviceReady =>
    rw [hs] at hmatch
    obtain ⟨hdevice, -⟩ := hmatch
    exact ⟨hdevice, .inr (.inl rfl)⟩
  | oneShotTransfer | interactiveLoop =>
    rw [hs] at hmatch
    obtain ⟨hdevice, hmode, -⟩ := hmatch
    exact ⟨hdevice, hmode, .inr (.inr rfl)⟩

theorem sessionHeld_closeSession (b : Bool) (hp : s.phase = .idle) (hdue : recoveryDue s = false) :
    SessionHeld cfg (closeSession b s) :=
  ⟨fun h => absurd rfl h, rfl, rfl, rfl, hp, hdue⟩

/-- R153, R182: a fatal condition outside `Closed`. -/
theorem SessionHeld.endFailed (h : SessionHeld cfg s) (hopen : ∀ b, s.hostState ≠ .closed b)
    (hp : s.phase = .idle) : SessionHeld cfg (endFailed s) := by
  obtain ⟨-, heq⟩ | ⟨hdue, heq⟩ := endFailed_cases s <;> rw [heq]
  · exact h.failSession hopen
  · exact sessionHeld_closeSession false hp hdue

/-- R199: with the device selected in `DeviceReady` the configuration has no error. -/
theorem SessionHeld.selected_of_ready (h : SessionHeld cfg s) (hstate : s.hostState = .deviceReady) :
    s.device = .jtagSelected ∧ ¬BadConfig cfg := by
  obtain ⟨hcfg, hmatch⟩ := h
  rw [hstate] at hmatch
  obtain ⟨hdevice, -⟩ := hmatch
  exact ⟨hdevice, hcfg (by simp [hdevice])⟩

theorem SessionHeld.selected_of_loop (h : SessionHeld cfg s) (hloop : mayLoop s = true) :
    s.device = .jtagSelected ∧ ¬BadConfig cfg := by
  obtain hstart | ⟨hstate, -⟩ := mayLoop_iff.mp hloop
  · exact h.selected_of_ready (mayStart_iff.mp hstart).1
  · obtain ⟨hcfg, hmatch⟩ := h
    rw [hstate] at hmatch
    obtain ⟨hdevice, -⟩ := hmatch
    exact ⟨hdevice, hcfg (by simp [hdevice])⟩

section

variable (h : SessionHeld cfg s)
include h

theorem SessionHeld.hostBoot (hp : s.phase = .idle) (hstep : hostBoot cfg s = .next t) :
    SessionHeld cfg t := by
  obtain ⟨huntouched, ⟨hcfg, rfl⟩ | ⟨-, rfl⟩⟩ := startUp_next hstep <;>
    obtain ⟨hidle, -, -⟩ := untouched_iff.mp huntouched
  · rw [SessionHeld]
    simp only [doFirst_hostState, hidle]
    exact ⟨fun _ => hcfg, .inr ⟨rfl, .inl rfl⟩⟩
  · exact h.endFailed (by simp [hidle]) hp

theorem SessionHeld.hostSession {input : List Byte} (hp : s.phase = .idle)
    (hstep : hostSession cfg input s = .next t) : SessionHeld cfg t := by
  obtain ⟨huntouched, ⟨-, rfl⟩ | ⟨-, rfl⟩⟩ := startUp_next hstep <;>
    obtain ⟨hidle, -, -⟩ := untouched_iff.mp huntouched
  · exact h.of_kept (by simp [hidle]) rfl rfl rfl
  · exact h.endFailed (by simp [hidle]) hp

theorem SessionHeld.hostReady (hstep : hostReady s = .next t) : SessionHeld cfg t := by
  obtain ⟨hforced, rfl⟩ := hostReady_next hstep
  have hopened : s.device = .opened := by simp_all [baselineForced]
  exact ⟨fun _ => h.1 (by simp [hopened]), rfl, .inl rfl⟩

/-- R148 to R151: the sequence of the configured mode is entered, with the device selected. -/
theorem SessionHeld.hostStart {input : List Byte} (hopen : ∀ b, s.hostState ≠ .closed b)
    (hp : s.phase = .idle) (hstep : hostStart cfg input s = .next t) : SessionHeld cfg t := by
  obtain ⟨-, ⟨-, rfl⟩ | ⟨hstands, hsequence⟩⟩ := hostStart_next hstep
  · exact h.failSession hopen
  obtain ⟨b, hmode, hstart, rfl⟩ | ⟨hmode, hstart, rfl⟩ | ⟨l, hmode, hloop, hl, rfl⟩ |
    ⟨l, -, -, -, rfl⟩ := hsequence
  · obtain ⟨hready, -⟩ := mayStart_iff.mp hstart
    obtain ⟨hdevice, hcfg⟩ := h.selected_of_ready hready
    rw [SessionHeld]
    simp only [doFirst_hostState, hready]
    exact ⟨fun _ => hcfg, hdevice, .inr (.inr ⟨.inl rfl, b, hmode⟩)⟩
  · obtain ⟨hready, -⟩ := mayStart_iff.mp hstart
    obtain ⟨hdevice, hcfg⟩ := h.selected_of_ready hready
    refine ⟨fun _ => hcfg, hdevice, hmode, ?_⟩
    rw [doFirst_stage, oneShotStage]
    split <;> simp
  · obtain ⟨hdevice, hcfg⟩ := h.selected_of_loop hloop
    refine ⟨fun _ => hcfg, hdevice, ⟨l, interactive_of_blockLengthOk hmode hl⟩, ?_⟩
    rw [doFirst_stage, roundStage]
    split
    · simp
    · split <;> simp
  · exact sessionHeld_closeSession false hp (recoveryDue_of_not_stands hstands).2

/-- R148 to R150: an action or a transfer under way may end in success. -/
theorem SessionHeld.finish (hstage : s.stage = .acting ∨ s.stage = .transferring) :
    SessionHeld cfg { s with stage := .finished } := by
  obtain ⟨hcfg, hmatch⟩ := h
  refine ⟨hcfg, ?_⟩
  cases hs : s.hostState with
  | idle => rw [hs] at hmatch; obtain h | h := hstage <;> simp [h] at hmatch
  | closed b => rw [hs] at hmatch; obtain h | h := hstage <;> simp [h] at hmatch
  | deviceReady =>
    rw [hs] at hmatch
    obtain ⟨hdevice, hmode⟩ := hmatch
    obtain h | h := hstage <;> simp [h] at hmode
    exact ⟨hdevice, .inr (.inr ⟨.inr rfl, by simpa using hmode⟩)⟩
  | oneShotTransfer | interactiveLoop =>
    rw [hs] at hmatch
    obtain ⟨hdevice, hmode, -⟩ := hmatch
    exact ⟨hdevice, hmode, .inr (.inl rfl)⟩

theorem SessionHeld.hostCheck (hopen : ∀ b, s.hostState ≠ .closed b) : SessionHeld cfg (hostCheck s) := by
  obtain ⟨-, heq⟩ | ⟨-, -, hacting, heq⟩ | heq := hostCheck_cases s <;> rw [heq]
  · exact h.failSession hopen
  · exact h.finish (.inl hacting)
  · exact h

theorem SessionHeld.hostEmit (hopen : ∀ b, s.hostState ≠ .closed b) (hstep : hostEmit s = .next t) :
    SessionHeld cfg t := by
  obtain ⟨-, rfl⟩ | ⟨-, htransferring, -, -, bytes, -, rfl⟩ := hostEmit_next hstep
  · exact h.failSession hopen
  · exact h.finish (.inr htransferring)

theorem SessionHeld.hostClose {b : Bool} (hopen : ∀ b, s.hostState ≠ .closed b) (hp : s.phase = .idle)
    (hstep : hostClose b s = .next t) : SessionHeld cfg t := by
  obtain ⟨-, ⟨-, rfl⟩ | ⟨hfree, rfl⟩⟩ := hostClose_next hstep
  · exact h.failSession hopen
  · exact sessionHeld_closeSession b hp (closeBlocked_false hfree).1

/-- R146: an action of the session sequences, by an idle core. -/
theorem SessionHeld.sessionAction {a : HostAction} (hof : ofSession a = true)
    (hopen : ∀ b, s.hostState ≠ .closed b) (hp : s.phase = .idle)
    (hstep : (hostFetch cfg a s).outcome = .next t) : SessionHeld cfg t := by
  cases a with
  | session input => exact h.hostSession hp hstep
  | boot => exact h.hostBoot hp hstep
  | ready => exact h.hostReady hstep
  | start input => exact h.hostStart hopen hp hstep
  | check =>
    obtain rfl : Machine.hostCheck s = t := Host.Outcome.next.inj hstep
    exact h.hostCheck hopen
  | emit => exact h.hostEmit hopen hstep
  | close b => exact h.hostClose hopen hp hstep
  | obWrite | obRead | ibRead | readStatus | codec | command | reset | yield => cases hof

theorem SessionHeld.hostCase {a : HostAction} (hopen : ∀ b, s.hostState ≠ .closed b)
    (hmay : hostMay a s.phase = true) (hcase : HostCase cfg s a t) : SessionHeld cfg t := by
  cases hcase with
  | obRead addr =>
    unfold hostObRead
    split <;> exact h.of_kept hopen rfl rfl rfl
  | yield t hcore =>
    obtain ⟨hstate, hdevice, hstage, -⟩ := hcore.session_eq
    exact h.of_kept hopen hstate hdevice hstage
  | session a t hof hstep =>
    exact h.sessionAction hof hopen (idle_of_sessionAction hof hmay) hstep
  | obWrite | ibRead | ibReadNothing | readStatus | codec | illegal | setcs | transact | reset =>
    exact h.of_kept hopen rfl rfl rfl

/-- The CORE and the LINK never touch the HOST's session, and in `Closed` the core is idle for good. -/
theorem SessionHeld.coreCase (hcase : CoreCase s t) : SessionHeld cfg t := by
  obtain ⟨hstate, hdevice, hstage, -⟩ := hcase.session_eq
  by_cases hclosed : ∃ b, s.hostState = .closed b
  · obtain ⟨b, hb⟩ := hclosed
    have hmatch := h.2
    rw [hb] at hmatch
    obtain ⟨-, -, -, hp, -⟩ := hmatch
    obtain rfl : t = s := hcase.eq_of_idle hp
    exact h
  · exact h.of_kept (fun b hb => hclosed ⟨b, hb⟩) hstate hdevice hstage

theorem SessionHeld.stepWith (hstep : stepWith cfg s = .next t) : SessionHeld cfg t := by
  obtain ⟨a, rest, hh, hmay, hcase⟩ | ⟨-, hcase⟩ := stepWith_cases hstep
  · have hopen := h.not_closed hh
    have hrest : SessionHeld cfg { s with host := rest } := h.of_kept hopen rfl rfl rfl
    exact hrest.hostCase hopen hmay hcase
  · exact h.coreCase hcase

end

end

/-! ### The invariant -/

/-- Every step keeps the invariant, part by part. -/
theorem Inv.stepWith {cfg : Parameters} {s t : State} (h : Inv cfg s) (hstep : stepWith cfg s = .next t) :
    Inv cfg t where
  buffersWf := stepKeeps_buffersWf.stepWith hstep h.buffersWf
  flags := stepKeeps_flagsExclusive.stepWith hstep h.flags
  failure := stepKeeps_failureRecorded.stepWith hstep h.failure
  response := stepKeeps_responseHeld.stepWith hstep h.response
  outbound := stepKeeps_outboundReversed.stepWith hstep h.outbound
  selected := stepKeeps_selectedInPhase.stepWith hstep h.selected
  shadow := stepKeeps_shadowTrue.stepWith hstep h.shadow
  waiting := stepKeeps_waitingHasRequest.stepWith hstep h.waiting
  session := h.session.stepWith hstep

/-- Settles O49: `Inv.stepWith`, under the machine's own configuration and under every one. -/
theorem invariantKept : Obligations.InvariantKept :=
  ⟨fun _ _ h hstep => h.stepWith hstep, fun _ _ _ h hstep => h.stepWith hstep⟩

/-- Settles O48: at reset the core is idle, nothing is in the buffers or in the record of results, and no session
is begun. -/
theorem invariantAtReset : Obligations.InvariantAtReset := fun _ =>
  { buffersWf := ⟨rfl, rfl, rfl⟩
    flags := Running.flagsExclusive ⟨rfl, rfl⟩
    failure := failureRecorded_of_none rfl rfl rfl
    response := responseHeld_of_none rfl rfl
    outbound := outboundReversed_of_ne nofun
    selected := selectedInPhase_of_phase (.inl rfl)
    shadow := shadowTrue_of_unknown rfl
    waiting := waitingHasRequest_of_not rfl
    session := ⟨fun h => absurd rfl h, .inl ⟨rfl, .inl rfl⟩⟩ }

end Sys2Proof.Machine
end


section
/-! What the steps of the CORE and the LINK add up to: the link history, the rows of the phase table, and whether
an operation ends (spec/10_state.md section 7, spec/42_transaction_framer.md sections 3 and 4). -/

namespace Sys2Proof.Machine

/-! ### The link history (R23, R53) -/

/-- From `s` to `t` the history has gained at most one event, at its end. -/
def LogGrows (s t : State) : Prop := ∃ evs, t.linkLog = s.linkLog ++ evs ∧ evs.length ≤ 1

theorem logGrows_of_eq {s t : State} (h : t.linkLog = s.linkLog) : LogGrows s t :=
  ⟨[], by simp [h], by simp⟩

theorem logGrows_of_event {s t : State} {ev : LinkEvent} (h : t.linkLog = s.linkLog ++ [ev]) :
    LogGrows s t :=
  ⟨[ev], h, by simp⟩

theorem length_abandoned_le (s : State) : s.abandoned.length ≤ 1 := by
  unfold State.abandoned
  split <;> simp

/-- R23: every answer is one event. -/
theorem CoreCase.logGrows {s t : State} (h : CoreCase s t) : LogGrows s t := by
  cases h with
  | revOut => exact logGrows_of_eq (revOutPhase_linkLog s)
  | revIn => exact logGrows_of_eq (revInPhase_linkLog s)
  | controlOk v d rest hr =>
    obtain ⟨-, -, hlog, -⟩ := controlSucceeded_controlOk (rest := rest) hr
    exact logGrows_of_event hlog
  | controlFail v e rest hr =>
    obtain ⟨-, hlog, -⟩ := controlFailed_controlFail (rest := rest) hr e
    exact logGrows_of_event hlog
  | idle | wait => exact logGrows_of_eq rfl
  | exchangeOk | exchangeFail => exact logGrows_of_event rfl

/-- R197: of what the HOST does, the reset input alone adds an event, that of the request it abandons. -/
theorem HostCase.logGrows {cfg : Parameters} {s t : State} {a : HostAction} (h : HostCase cfg s a t) :
    LogGrows s t := by
  cases h with
  | obRead addr =>
    refine logGrows_of_eq ?_
    rw [registersKept_hostObRead addr s]
  | reset => exact ⟨s.abandoned, rfl, length_abandoned_le s⟩
  | yield t hcore => exact hcore.logGrows
  | session a t _ _ heq => exact logGrows_of_eq (by rw [heq])
  | obWrite | ibRead | ibReadNothing | readStatus | codec | illegal | setcs | transact =>
    exact logGrows_of_eq rfl

/-- Settles O32: an answer or an abandoned request is the only event of its step. -/
theorem linkLogGrows : Obligations.LinkLogGrows := by
  intro s t h
  obtain ⟨a, rest, -, -, hcase⟩ | ⟨-, hcase⟩ := stepWith_cases h
  · exact hcase.logGrows
  · exact hcase.logGrows

/-! ### The rows of the phase table (R125) -/

/-- R125: a step of the CORE and the LINK is a row of the table, or waits: for a command in `IDLE`, for an answer
in a phase that issues a request. -/
theorem CoreCase.row_or_waits {s t : State} (h : CoreCase s t) (hf : FlagsExclusive s) :
    (t.phase = s.phase ∧
      (s.phase = .idle ∨ (s.phase ≠ .idle ∧ s.request.isSome = true ∧ nextAnswer s.link = none))) ∨
    CoreRow s t := by
  cases h with
  | idle hp => exact .inl ⟨rfl, .inl hp⟩
  | wait hr hn =>
    refine .inl ⟨rfl, .inr ⟨fun hp => ?_, hr, hn⟩⟩
    simp [request_of_idle hp] at hr
  | revOut hp =>
    have hrun : Running (revOutPhase s) := by rw [revOutPhase_eq]; exact hf.running (by simp [hp])
    exact .inr (.inr (.inr (.inr (.inr (.inl ⟨hp, rfl, hrun⟩)))))
  | revIn hp =>
    have hend : Succeeded (revInPhase s) := ⟨rfl, (revInPhase_err s).trans (hf.running (by simp [hp])).2⟩
    exact .inr (.inr (.inr (.inr (.inr (.inr (.inr (.inr (.inr (.inr ⟨hp, rfl, hend⟩)))))))))
  | controlOk v d rest hr hn =>
    have hans : AnsweredOk s := ⟨d, rest, hn⟩
    obtain ⟨hp, -, heq⟩ | ⟨hp, -, heq⟩ | ⟨hp, heq⟩ := controlOk_cases hr _ rest <;>
      have hrun : Running s := hf.running (by simp [hp]) <;> rw [heq]
    · exact .inr (.inr (.inr (.inl ⟨hp, hans, rfl, hrun⟩)))
    · exact .inr (.inr (.inr (.inr (.inr (.inr (.inr (.inr (.inl ⟨hp, hans, rfl, hrun⟩))))))))
    · exact .inr (.inl ⟨hp, hans, rfl, rfl, hrun.2⟩)
  | controlFail v e rest hr hn =>
    have hans : AnsweredFail s := ⟨e, rest, hn⟩
    obtain ⟨-, -, -, -, herr, hdone, hcode, -, -, hphase, -⟩ :=
      controlFailed_controlFail (rest := rest) hr e
    obtain ⟨-, hp⟩ | ⟨-, hp⟩ | ⟨hp, -⟩ := request_control s v hr <;> rw [hp] at hcode
    · exact .inr (.inr (.inr (.inr (.inl ⟨hp, hans, hphase, herr, hdone, hcode⟩))))
    · exact .inr (.inr (.inr (.inr (.inr (.inr (.inr (.inr (.inr (.inl
        ⟨hp, hans, hphase, herr, hdone, hcode⟩)))))))))
    · exact .inr (.inr (.inl ⟨hp, hans, hphase, herr, hdone, hcode⟩))
  | exchangeOk rx rest hp hn hlen =>
    exact .inr (.inr (.inr (.inr (.inr (.inr (.inl
      ⟨hp, ⟨rx, rest, hn, hlen⟩, rfl, hf.running (by simp [hp])⟩))))))
  | exchangeFail e rest hp hn =>
    have hans : ExchangedFail s :=
      hn.imp (fun h => ⟨e, rest, h⟩) fun ⟨rx, hok, hlen, _⟩ => ⟨rx, rest, hok, hlen⟩
    exact .inr (.inr (.inr (.inr (.inr (.inr (.inr (.inl ⟨hp, hans, rfl, rfl, rfl, rfl⟩)))))))

/-- R25: where the step is not the HOST's, no command stands on an idle core's port. -/
theorem CoreTurn.not_accepts {s : State} (h : CoreTurn s) (hp : s.phase = .idle) (i : Instr) :
    ¬Accepts s i := by
  rintro ⟨w, rest, hh, -⟩
  obtain hw | ⟨rest', hy⟩ := h
  · simp [hostWaits, hh, hostMay, hp] at hw
  · simp [hh] at hy

/-- R125: the step of the CORE and the LINK, in the terms of the table; a `yield` is already off the HOST's
list. -/
theorem CoreTurn.phaseRow_or_stays {s t : State} (h : CoreTurn s) {acts : List HostAction}
    (hcase : CoreCase { s with host := acts } t) (hf : FlagsExclusive s) :
    (t.phase = s.phase ∧ NoPhaseEvent s) ∨ PhaseRow s t := by
  obtain ⟨hphase, hp | ⟨hp, hwait⟩⟩ | hrow := hcase.row_or_waits hf
  · exact .inl ⟨hphase, .inl ⟨hp, h.not_accepts hp⟩⟩
  · exact .inl ⟨hphase, .inr ⟨hp, .inr hwait⟩⟩
  · exact .inr (.inr (.inr ⟨h, hrow⟩))

/-- R125: a step of the HOST that gives no command and does not yield is no event of the table. -/
theorem noPhaseEvent_of_acts {s : State} {a : HostAction} {rest : List HostAction} (hh : s.host = a :: rest)
    (hmay : hostMay a s.phase = true) (hyield : a ≠ .yield) (hcommand : ∀ w, a ≠ .command w) :
    NoPhaseEvent s := by
  by_cases hp : s.phase = .idle
  · refine .inl ⟨hp, fun i => ?_⟩
    rintro ⟨w, rest', hh', -⟩
    rw [hh] at hh'
    exact hcommand w (List.cons.inj hh').1
  · refine .inr ⟨hp, .inl ?_⟩
    rintro (hw | ⟨rest', hh'⟩)
    · simp [hostWaits, hh, hmay] at hw
    · rw [hh] at hh'
      exact hyield (List.cons.inj hh').1

/-- R125: a step of the HOST, in the terms of the table. -/
theorem HostCase.phaseRow_or_stays {cfg : Parameters} {s t : State} {a : HostAction}
    {rest : List HostAction} (hh : s.host = a :: rest) (hmay : hostMay a s.phase = true)
    (hf : FlagsExclusive s) (hcase : HostCase cfg { s with host := rest } a t) :
    (t.phase = s.phase ∧ NoPhaseEvent s) ∨ a = .reset ∨ PhaseRow s t := by
  cases hcase with
  | illegal w e hd =>
    have hp : s.phase = .idle := by simpa [hostMay] using hmay
    refine .inl ⟨hp.symm, .inl ⟨hp, fun i => ?_⟩⟩
    rintro ⟨w', rest', hh', hd'⟩
    obtain ⟨rfl, -⟩ : w = w' ∧ rest = rest' := by simpa [hh] using hh'
    rw [hd] at hd'
    cases hd'
  | setcs w en hd hp => exact .inr (.inr (.inl ⟨hp, ⟨en, w, rest, hh, hd⟩, rfl, rfl, rfl⟩))
  | transact w n hd hp hn =>
    exact .inr (.inr (.inr (.inl ⟨hp, ⟨n, hn, w, rest, hh, hd⟩, rfl, rfl, rfl⟩)))
  | reset => exact .inr (.inl rfl)
  | yield t hcore =>
    exact (CoreTurn.phaseRow_or_stays (.inr ⟨rest, hh⟩) hcore hf).imp_right .inr
  | obRead addr =>
    refine .inl ⟨?_, noPhaseEvent_of_acts hh hmay nofun nofun⟩
    rw [registersKept_hostObRead addr { s with host := rest }]
  | session a t hof _ heq =>
    refine .inl ⟨by rw [heq], noPhaseEvent_of_acts hh hmay ?_ ?_⟩
    · rintro rfl
      cases hof
    · rintro w rfl
      cases hof
  | obWrite | ibRead | ibReadNothing | readStatus | codec =>
    exact .inl ⟨rfl, noPhaseEvent_of_acts hh hmay nofun nofun⟩

theorem coreStep_of_idle {s : State} (hp : s.phase = .idle) : coreStep s = .next s := by
  simp [coreStep, request_of_idle hp, ownPhase, hp]

/-- Settles O31: every way in which a step can go on is a row of the table, a reset, or no event of it; and an
idle core does nothing of its own. -/
theorem phaseTransitions : Obligations.PhaseTransitions := by
  refine ⟨fun s t hf hstep => ?rows, fun s hp => ⟨fun hh => ?nothing, fun rest hh => ?yield⟩⟩
  case rows =>
    obtain ⟨a, rest, hh, hmay, hcase⟩ | ⟨hwaits, hcase⟩ := stepWith_cases hstep
    · refine (hcase.phaseRow_or_stays hh hmay hf).imp_right (.imp_left ?_)
      rintro rfl
      exact ⟨rest, hh⟩
    · have hturn : CoreTurn s := by
        left
        cases hh : s.host with
        | nil => simp [hostWaits, hh]
        | cons a rest => simp [hostWaits, hh, hwaits a rest hh]
      exact (hturn.phaseRow_or_stays hcase hf).imp_right .inr
  case nothing =>
    rw [step_eq, stepWith_of_hostWaits _ s (by simp [hostWaits, hh]), coreStep_of_idle hp]
  case yield =>
    rw [step_eq, stepWith_yield _ hh]
    exact coreStep_of_idle (s := { s with host := rest }) hp

/-! ### A request and its answer (R125, R134) -/

/-- R134: with no answer, the core waits. -/
theorem CoreCase.eq_awaitLink {s t : State} (h : CoreCase s t) (hr : s.request.isSome = true)
    (hn : nextAnswer s.link = none) : t = awaitLink s := by
  cases h with
  | wait => rfl
  | idle hp => simp [State.request, hp] at hr
  | revOut hp => simp [State.request, hp] at hr
  | revIn hp => simp [State.request, hp] at hr
  | controlOk v d rest _ hn' => simp [hn] at hn'
  | controlFail v e rest _ hn' => simp [hn] at hn'
  | exchangeOk rx rest _ hn' => simp [hn] at hn'
  | exchangeFail e rest _ hn' => simp [hn] at hn'

theorem coreStep_of_silence {s : State} (hr : s.request.isSome = true)
    (hn : nextAnswer s.link = none) : coreStep s = .next (awaitLink s) := by
  obtain ⟨t, hstep⟩ := coreStep_answers s
  rw [hstep, (coreStep_next hstep).eq_awaitLink hr hn]

/-- Settles O28: the waiting step is `awaitLink`'s. -/
theorem requestWaits : Obligations.RequestWaits := by
  intro s i hr hn
  have hexec : exec i s = .next (awaitLink s) := by
    rw [← coreStep_of_silence (by simp [hr]) hn, coreStep, hr]
  exact ⟨_, hexec, rfl, fun _ _ => by rfl, rfl⟩

/-- Settles O30: each of the three tests first whether the phase issues it. -/
theorem requestOutOfPhaseRefused : Obligations.RequestOutOfPhaseRefused := by
  rintro s i (rfl | rfl | ⟨bc, rfl⟩) hr
  · exact if_neg hr
  · exact if_neg hr
  · exact if_neg hr

/-! ### A LINK that never answers (R134) -/

theorem nextAnswer_eq_none {l : List LinkInput} (h : ∀ a, LinkInput.answer a ∉ l) :
    nextAnswer l = none := by
  induction l with
  | nil => rfl
  | cons x l ih =>
    cases x with
    | answer a => exact absurd List.mem_cons_self (h a)
    | silent => rfl
    | late a => exact ih fun b hb => h b (List.mem_cons_of_mem _ hb)

theorem afterSilence_suffix (l : List LinkInput) : afterSilence l <:+ l := by
  induction l with
  | nil => exact List.suffix_rfl
  | cons x l ih =>
    cases x with
    | answer a => exact List.suffix_rfl
    | silent => exact List.suffix_cons _ _
    | late a => exact ih.trans (List.suffix_cons _ _)

/-- R134: the core waits for ever. -/
theorem runSteps_of_silence (cfg : Parameters) (n : Nat) {s : State} (hr : s.request.isSome = true)
    (hsilent : ∀ a, LinkInput.answer a ∉ s.link) (hw : hostWaits s = true) :
    ∃ w link, runSteps cfg n s = .next { s with waiting := w, link := link } := by
  induction n generalizing s with
  | zero => exact ⟨s.waiting, s.link, rfl⟩
  | succ n ih =>
    have hstep : stepWith cfg s = .next (awaitLink s) := by
      rw [stepWith_of_hostWaits cfg s hw, coreStep_of_silence hr (nextAnswer_eq_none hsilent)]
    rw [runSteps_succ cfg n _ _ hstep]
    exact ih (s := awaitLink s) hr (fun a ha => hsilent a ((afterSilence_suffix s.link).subset ha)) hw

/-! ### A LINK that answers every request (R125, R205) -/

/-- How many phases an operation still has before it, its own included. -/
def phasesLeft : Phase → Nat
  | .idle => 0
  | .csOnly => 1
  | .revIn => 1
  | .deassert => 2
  | .exchange => 3
  | .revOut => 4
  | .assert => 5

/-- What every step of a running operation takes from: its phases, or what the LINK will do. -/
def workLeft (s : State) : Nat := phasesLeft s.phase + s.link.length

theorem nextAnswer_suffix {l rest : List LinkInput} {a : LinkAnswer} (h : nextAnswer l = some (a, rest)) :
    rest <:+ l := by
  induction l with
  | nil => cases h
  | cons x l ih =>
    cases x with
    | answer b => cases h; exact List.suffix_cons _ _
    | silent => cases h
    | late b => exact (ih h).trans (List.suffix_cons _ _)

/-- A step of waiting takes something from what the LINK will do. -/
theorem length_afterSilence_lt {l : List LinkInput} (hn : nextAnswer l = none) (hne : l ≠ []) :
    (afterSilence l).length < l.length := by
  cases l with
  | nil => exact absurd rfl hne
  | cons x l =>
    cases x with
    | answer a => cases hn
    | silent => exact Nat.lt_succ_self _
    | late a => exact Nat.lt_succ_of_le (afterSilence_suffix l).length_le

theorem phasesLeft_pos {p : Phase} (h : p ≠ .idle) : 0 < phasesLeft p := by
  cases p with
  | idle => exact absurd rfl h
  | assert | revOut | exchange | deassert | revIn | csOnly => exact Nat.zero_lt_succ _

theorem workLeft_lt_of_phase {s t : State} {p q : Phase} (hs : s.phase = p) (ht : t.phase = q)
    (hless : phasesLeft q < phasesLeft p) (hlink : t.link <:+ s.link) : workLeft t < workLeft s := by
  rw [← hs, ← ht] at hless
  exact Nat.add_lt_add_of_lt_of_le hless hlink.length_le

theorem CoreCase.workLeft_lt {s t : State} (h : CoreCase s t) (hp : s.phase ≠ .idle)
    (hans : s.request.isSome = true → ∃ a, LinkInput.answer a ∈ s.link) : workLeft t < workLeft s := by
  cases h with
  | idle hidle => exact absurd hidle hp
  | wait hr hn =>
    obtain ⟨a, ha⟩ := hans hr
    exact Nat.add_lt_add_left (length_afterSilence_lt hn (List.ne_nil_of_mem ha)) _
  | revOut hp => exact workLeft_lt_of_phase hp (revOutPhase_phase s) (by decide) (by simp)
  | revIn hp => exact workLeft_lt_of_phase hp (revInPhase_phase s) (by decide) (by simp)
  | controlOk v d rest hr hn =>
    have hlink := nextAnswer_suffix hn
    obtain ⟨hp, -, heq⟩ | ⟨hp, -, heq⟩ | ⟨hp, heq⟩ := controlOk_cases hr _ rest <;> rw [heq]
    · exact workLeft_lt_of_phase (q := .revOut) hp rfl (by decide) hlink
    · exact workLeft_lt_of_phase (q := .revIn) hp rfl (by decide) hlink
    · exact workLeft_lt_of_phase (q := .idle) hp rfl (by decide) hlink
  | controlFail v e rest hr hn =>
    obtain ⟨-, -, hlink, -, -, -, -, -, -, hphase, -⟩ := controlFailed_controlFail (rest := rest) hr e
    refine workLeft_lt_of_phase rfl hphase (phasesLeft_pos hp) ?_
    rw [hlink]
    exact nextAnswer_suffix hn
  | exchangeOk rx rest hp hn =>
    exact workLeft_lt_of_phase (q := .deassert) hp rfl (by decide) (nextAnswer_suffix hn)
  | exchangeFail e rest hp hn =>
    have hlink : rest <:+ s.link := hn.elim nextAnswer_suffix fun ⟨_, hok, _⟩ => nextAnswer_suffix hok
    exact workLeft_lt_of_phase (q := .idle) hp rfl (by decide) hlink

/-- R125: an operation ends with `DONE` or `ERR`. -/
theorem CoreCase.ends {s t : State} (h : CoreCase s t) (hp : s.phase ≠ .idle) (ht : t.phase = .idle) :
    t.done = true ∨ t.err = true := by
  cases h with
  | idle hidle => exact absurd hidle hp
  | wait => exact absurd ht hp
  | revOut => cases ht
  | revIn => exact .inl rfl
  | controlOk v d rest hr =>
    obtain ⟨-, -, heq⟩ | ⟨-, -, heq⟩ | ⟨-, heq⟩ := controlOk_cases hr _ rest <;> rw [heq] at ht ⊢
    · cases ht
    · cases ht
    · exact .inl rfl
  | controlFail v e rest hr =>
    obtain ⟨-, -, -, -, herr, -⟩ := controlFailed_controlFail (rest := rest) hr e
    exact .inr herr
  | exchangeOk => cases ht
  | exchangeFail => exact .inr rfl

/-- What the LINK is assumed to do from a state on, it does from the next one on. -/
theorem LinkAnswers.next {cfg : Parameters} {s t : State} (h : LinkAnswers cfg s)
    (hstep : stepWith cfg s = .next t) : LinkAnswers cfg t :=
  fun n u hrun => h (n + 1) u ((runSteps_succ cfg n s t hstep).trans hrun)

/-- R205: every step takes from the work that is left, so the operation ends. -/
theorem operation_ends (cfg : Parameters) {s : State} (hlink : LinkAnswers cfg s) (hp : s.phase ≠ .idle)
    (hblock : blocking s.host = true) :
    ∃ n t, runSteps cfg n s = .next t ∧ t.phase = .idle ∧ (t.done = true ∨ t.err = true) ∧
      t.host = s.host := by
  induction hwork : workLeft s using Nat.strong_induction_on generalizing s with
  | _ m ih =>
    obtain ⟨t, hcore⟩ := coreStep_answers s
    have hstep : stepWith cfg s = .next t := by rw [stepWith_of_blocking cfg s hp hblock, hcore]
    have hcase := coreStep_next hcore
    have hhost := hcase.host_eq
    by_cases ht : t.phase = .idle
    · exact ⟨1, t, runSteps_succ cfg 0 s t hstep, ht, hcase.ends hp ht, hhost⟩
    · have hless := hcase.workLeft_lt hp fun hr => hlink 0 s rfl hr
      obtain ⟨n, u, hrun, hidle, hend, hkept⟩ :=
        ih _ (hwork ▸ hless) (hlink.next hstep) ht (hhost ▸ hblock) rfl
      exact ⟨n + 1, u, (runSteps_succ cfg n s t hstep).trans hrun, hidle, hend, hkept.trans hhost⟩

/-- Settles O29: without an answer every step is the waiting one; with them, every step takes from the work that
is left. -/
theorem endsIfAnsweredElseHangs : Obligations.EndsIfAnsweredElseHangs := by
  constructor
  · intro cfg n s hr hsilent hw
    have hissues : s.request.isSome = true := Option.isSome_iff_ne_none.mpr hr
    obtain ⟨w, link, hrun⟩ := runSteps_of_silence cfg n hissues hsilent hw
    exact ⟨_, hrun, rfl, (busy_iff s).mpr fun hp => hr (request_of_idle hp), rfl, rfl⟩
  · intro cfg s hassumed hadmitted hbusy hblock
    obtain ⟨n, t, hrun, hidle, hend, hhost⟩ :=
      operation_ends cfg (hadmitted hassumed) ((busy_iff s).mp hbusy) hblock
    exact ⟨n, t, hrun, by simp [State.busy, hidle], hend, hhost⟩

end Sys2Proof.Machine
end


section
/-! The buffers, the HOST's ports to them, and the serial streams (spec/20_memory.md, spec/10_state.md sections 8
and 9, spec/40_bitrev_codec.md section 2). -/

namespace Sys2Proof.Machine

/-! ### The general `REVBUF` (R94, R95) -/

section

variable (dst src : Space) (dOff sOff n : Nat) (s : State)

/-- What the general `REVBUF` leaves. -/
def reversedInto : State := s.writeBytes dst dOff (s.reversed src sOff n)

variable {dst src dOff sOff n}

theorem revBuf_of_outside (h : Config.maxLen < dOff + n ∨ Config.maxLen < sOff + n) :
    revBuf dst src dOff sOff n s = .fault .bufferRange := if_pos h

section

variable (hd : dOff + n ≤ Config.maxLen) (hs : sOff + n ≤ Config.maxLen)
include hd hs

theorem revBuf_of_overlap (h : partialOverlap dst src dOff sOff n = true) :
    revBuf dst src dOff sOff n s = .refused .partialOverlap := by
  rw [revBuf, if_neg (by omega), if_pos h]

theorem revBuf_of_no_overlap (h : partialOverlap dst src dOff sOff n = false) :
    revBuf dst src dOff sOff n s = .next (reversedInto dst src dOff sOff n s) := by
  rw [revBuf, if_neg (by omega), if_neg (by simp [h])]
  rfl

end

/-- R94: the bytes of the range are the reversed source bytes as they stood before; all others are as before. -/
theorem reversedInto_store (hd : dOff + n ≤ Config.maxLen) (sp : Space) (k : Nat) :
    ((reversedInto dst src dOff sOff n s).store sp).read k =
      if dst = sp ∧ dOff ≤ k ∧ k < dOff + n then some (rev8 (s.readByte src (sOff + (k - dOff))))
      else (s.store sp).read k := by
  have hlen := length_reversed s src sOff n
  rw [reversedInto, store_writeBytes s dst sp dOff _ k (by rwa [hlen]), hlen]
  by_cases hk : dst = sp ∧ dOff ≤ k ∧ k < dOff + n
  · rw [if_pos hk, if_pos hk, getElem?_reversed s src sOff n _ (by omega)]
  · rw [if_neg hk, if_neg hk]

end

/-- Settles O9: the three tests of `revBuf` in turn, and what the writes of the reversed bytes leave. -/
theorem revBufReverses : Obligations.RevBufReverses := by
  intro dst src dOff sOff n s
  refine ⟨fun hd hs => ⟨revBuf_of_overlap s hd hs, fun hov => ?_⟩, revBuf_of_outside s⟩
  have hread := reversedInto_store (dst := dst) (src := src) (sOff := sOff) s hd
  refine ⟨_, revBuf_of_no_overlap s hd hs hov, fun k hk => ?inside, fun k hk => ?outside,
    fun sp hsp k => ?other, writeBytes_eq s dst dOff (s.reversed src sOff n)⟩
  case inside => rw [hread, if_pos ⟨rfl, by omega, by omega⟩, Nat.add_sub_cancel_left]
  case outside => rw [hread, if_neg (by omega)]
  case other => rw [hread, if_neg fun h => hsp h.1.symm]

/-! ### The HOST's buffer ports (R26, R41) -/

/-- R41: the last index that selects a byte. -/
theorem lt_maxLen_iff (k : Nat) : k < Config.maxLen ↔ k ≤ 8190 := Nat.lt_succ_iff

theorem step_obWrite {s : State} {addr : Length} {data : Byte} {rest : List HostAction}
    (hp : s.phase = .idle) (hh : s.host = .obWrite addr data :: rest) :
    step s = .next { s with ob := s.ob.write addr.toNat data, host := rest } :=
  stepWith_host_idle _ s _ rest hp hh

/-- Settles O40: the write is `Memory.write`, which drops index 8191. -/
theorem outboundWritePort : Obligations.OutboundWritePort := by
  intro s addr data rest hp hh
  have hread := Memory.read_write s.ob addr.toNat data
  refine ⟨_, step_obWrite hp hh, fun hin => ⟨?written, fun k hk => ?others⟩, fun hout k => ?dropped,
    fun _ => rfl, fun _ => rfl, rfl⟩
  case written => exact (hread _).trans (if_pos ⟨rfl, (lt_maxLen_iff _).mpr hin⟩)
  case others => exact (hread k).trans (if_neg fun h => hk h.1.symm)
  case dropped => exact (hread k).trans (if_neg fun h => by have := (lt_maxLen_iff _).mp h.2; omega)

theorem step_ibRead {s : State} {addr : Length} {rest : List HostAction} (hp : s.phase = .idle)
    (hh : s.host = .ibRead addr :: rest) : step s = hostIbRead addr { s with host := rest } :=
  stepWith_host_idle _ s _ rest hp hh

section

variable {addr : Length} (s : State)

theorem hostIbRead_of_response {b : Byte} (hin : addr.toNat ≤ 8190)
    (h : s.response addr.toNat = some b) : hostIbRead addr s = .next { s with rdata := b } := by
  rw [hostIbRead, if_pos ((lt_maxLen_iff _).mpr hin), h]

theorem hostIbRead_of_no_response (hin : addr.toNat ≤ 8190) (h : s.response addr.toNat = none) :
    hostIbRead addr s = .refused .unspecifiedRead := by
  rw [hostIbRead, if_pos ((lt_maxLen_iff _).mpr hin), h]

theorem hostIbRead_of_eq (hout : addr.toNat = 8191) : hostIbRead addr s = .next (hostReadNothing s) :=
  if_neg (by rw [lt_maxLen_iff]; omega)

end

/-- Settles O41: whether the byte is one of the response decides between the read and the refusal. -/
theorem inboundReadPort : Obligations.InboundReadPort := by
  intro s addr rest hp hh
  have hstep := step_ibRead hp hh
  refine ⟨fun b hin hvalid hlt hread => ?valid, fun hin hnone => ?refused, fun hout => ?nothing⟩
  case valid =>
    have hresponse : State.response { s with host := rest } addr.toNat = some b :=
      (if_pos ⟨hvalid, hlt⟩).trans hread
    rw [hostIbRead_of_response _ hin hresponse] at hstep
    exact ⟨_, hstep, rfl, buffersKept_of_store fun sp => by cases sp <;> rfl, rfl⟩
  case refused =>
    have hresponse : State.response { s with host := rest } addr.toNat = none := by
      refine if_neg fun h => ?_
      obtain ⟨hvalid, hlt⟩ := h
      exact hnone.elim (fun hv => by simp [hv] at hvalid) fun hle => absurd hlt (Nat.not_lt.mpr hle)
    rw [hstep, hostIbRead_of_no_response _ hin hresponse]
  case nothing =>
    rw [hostIbRead_of_eq _ hout] at hstep
    exact ⟨_, hstep, buffersKept_of_store fun sp => by cases sp <;> rfl, rfl⟩

/-- Settles O46: the reset state, field by field. -/
theorem resetValues : Obligations.ResetValues :=
  ⟨rfl, rfl, rfl, rfl, rfl, rfl, rfl, rfl, rfl, rfl, rfl, rfl, rfl, fun sp _ => by cases sp <;> rfl⟩

/-! ### The deserialiser (R43, R45) -/

section

variable (o : BitOrder)

theorem bitInTime_lt {j : Nat} (h : j < 8) : bitInTime o j < 8 := by
  cases o with
  | lsbFirst => exact h
  | msbFirst => exact Nat.sub_lt_succ 7 j

/-- R43: either order is its own inverse. -/
theorem bitInTime_bitInTime {j : Nat} (h : j < 8) : bitInTime o (bitInTime o j) = j := by
  cases o with
  | lsbFirst => rfl
  | msbFirst => exact Nat.sub_sub_self (Nat.le_of_lt_succ h)

variable (si : List Bool)

@[simp] theorem length_des : (des o si).length = si.length / 8 := by simp [des]

theorem getElem?_des {k : Nat} (h : k < si.length / 8) : (des o si)[k]? = some (streamByte o si k) := by
  simp [des, h]

/-- R45: bit by bit, the byte made of the eight stream bits from `8 * k` on. -/
theorem getLsbD_streamByte (k : Nat) {j : Nat} (h : j < 8) :
    (streamByte o si k).getLsbD j = si.getD (8 * k + bitInTime o j) false := by
  rw [streamByte, BitVec.getLsbD_ofFnLE, dif_pos h]

end

/-- The bit of the stream of an array that is bit `j` of byte `k`. -/
theorem getElem?_ser_bitInTime (o : BitOrder) {bytes : List Byte} {k j : Nat} {b : Byte}
    (hb : bytes[k]? = some b) (hj : j < 8) :
    (ser o bytes)[8 * k + bitInTime o j]? = some (b.getLsbD j) := by
  have hlt := bitInTime_lt o hj
  have hdiv : (8 * k + bitInTime o j) / 8 = k := by omega
  have hmod : (8 * k + bitInTime o j) % 8 = bitInTime o j := by omega
  rw [getElem?_ser o (hdiv ▸ hb), hmod, bitInTime_bitInTime o hj]

theorem streamByte_ser (o : BitOrder) {bytes : List Byte} {k : Nat} {b : Byte} (hb : bytes[k]? = some b) :
    streamByte o (ser o bytes) k = b := by
  refine BitVec.eq_of_getLsbD_eq fun j hj => ?_
  rw [getLsbD_streamByte o _ k hj, List.getD_eq_getElem?_getD, getElem?_ser_bitInTime o hb hj,
    Option.getD_some]

/-- R45: `DES` undoes `SER`. -/
theorem des_ser (o : BitOrder) (bytes : List Byte) : des o (ser o bytes) = bytes := by
  have hlen : (ser o bytes).length / 8 = bytes.length := by simp
  refine List.ext_getElem? fun k => ?_
  by_cases hk : k < bytes.length
  · have hb : bytes[k]? = some bytes[k] := List.getElem?_eq_getElem hk
    rw [getElem?_des o _ (hlen ▸ hk), streamByte_ser o hb, hb]
  · have hle : bytes.length ≤ k := Nat.le_of_not_lt hk
    rw [List.getElem?_eq_none (by simpa using hle), List.getElem?_eq_none hle]

/-- Settles O43: each byte of `DES` bit by bit, and what it makes of a stream that `SER` wrote. -/
theorem deserialiserBytes : Obligations.DeserialiserBytes := by
  refine ⟨fun si k j hk hj => ?_, des_ser, length_des⟩
  have hbit : si[8 * k + j]? = some si[8 * k + j] := List.getElem?_eq_getElem (by omega)
  rw [getElem?_des _ si (by omega), Option.map_some, getLsbD_streamByte _ si k (by omega),
    bitInTime_lsbFirst, List.getD_eq_getElem?_getD, hbit, Option.getD_some]

/-! ### The order of the bits end to end (R46) -/

/-- Settles O44: the stream takes a byte from its lowest bit on, and `rev8` has put the highest bit there. -/
theorem spiBitOrder : Obligations.SpiBitOrder := by
  constructor
  · intro s k j hp hrev hk hj
    have hbyte : s.readByte .tx k = rev8 (s.readByte .ob k) := readByte_of_read (hrev hp k hk)
    have hbit := getElem?_ser_bitInTime Config.linkBitOrder (getElem?_txBytes s k hk)
      (Nat.lt_succ_of_le hj)
    rw [hbyte, getLsbD_rev8 _ (Nat.lt_succ_of_le hj)] at hbit
    exact hbit
  · intro rx k j b hb hj
    have hbit := getElem?_ser_bitInTime Config.linkBitOrder hb (Nat.lt_succ_of_le hj)
    rw [getLsbD_rev8 _ (by omega), Nat.sub_sub_self hj]
    exact hbit

end Sys2Proof.Machine
end


section
/-! The two commands and the phases of a `TRANSACT` (spec/41_chip_select.md, spec/42_transaction_framer.md). -/

namespace Sys2Proof.Machine

/-! ### `SETCS` (R100, R105) -/

/-- Settles O11: the acceptance is `beginSetcs`. -/
theorem setcsAccepted_of_idle : Obligations.SetcsAccepted := by
  intro en s hp
  exact ⟨_, exec_setcs_of_idle en hp, rfl, rfl, ⟨rfl, rfl⟩, rfl, rfl,
    buffersKept_of_store fun sp => by cases sp <;> rfl, rfl⟩

section

variable (en : Bool) (rest : List HostAction) (link : List LinkInput) (s : State)

theorem setcsCompleted_css :
    (setcsCompleted en rest link s).css = if en then .asserted else .deasserted :=
  cssAfter_controlVerb en

theorem setcsCompleted_line :
    (setcsCompleted en rest link s).line = lineAfter (controlVerb en) := rfl

theorem setcsCompleted_phase : (setcsCompleted en rest link s).phase = .idle := rfl

theorem setcsCompleted_done : (setcsCompleted en rest link s).done = true := rfl

theorem setcsCompleted_host : (setcsCompleted en rest link s).host = rest := rfl

theorem setcsCompleted_link : (setcsCompleted en rest link s).link = link := rfl

theorem setcsCompleted_linkLog :
    (setcsCompleted en rest link s).linkLog =
      s.linkLog ++ [if en then .ctlClear (.ok []) else .ctlSet (.ok [])] := by
  rw [← controlEvent_controlVerb]
  rfl

end

/-- Settles O13: the second `SETCS` starts where the first one ended, and leaves what the first one left. -/
theorem setcsIdempotent : Obligations.SetcsIdempotent := by
  intro cfg s en rest d1 d2 lrest hstart hblock hlink
  have hfirst := runSteps_setcsCompleted cfg hstart (d := d1) (link := .answer (.ok d2) :: lrest)
    (by rw [hlink]; rfl)
  generalize ht : setcsCompleted en (.command (if en then 0x2001#16 else 0x2000#16) :: rest)
    (.answer (.ok d2) :: lrest) s = t at hfirst
  have hstart' : StartsSetcs t en rest := by
    rw [← ht]
    exact ⟨setcsCompleted_phase .., setcsCompleted_host .., hblock⟩
  have hanswer : nextAnswer t.link = some (.ok d2, lrest) := by
    rw [← ht, setcsCompleted_link]
    rfl
  have hsecond := runSteps_setcsCompleted cfg hstart' hanswer
  refine ⟨t, _, hfirst, (runSteps_add cfg 2 2 _ _ hfirst).trans hsecond, ?css, ?line,
    setcsCompleted_css en rest lrest t, ?log, setcsCompleted_phase .., setcsCompleted_done ..⟩
  case css => rw [setcsCompleted_css, ← ht, setcsCompleted_css]
  case line => rw [setcsCompleted_line, ← ht, setcsCompleted_line]
  case log =>
    rw [setcsCompleted_linkLog, ← ht, setcsCompleted_linkLog, List.append_assoc]
    cases en <;> rfl

/-! ### The acceptance of `TRANSACT` (R115, R116) -/

theorem exec_transact_of_idle {n : Nat} {s : State} (hp : s.phase = .idle) (hn : n ≤ Config.maxLen) :
    exec (.transact n) s = .next (beginTransact n s) := by
  show execTransact n s = _
  rw [execTransact, if_pos hp, if_pos hn]

theorem toNat_beginTransact_len {n : Nat} (hn : n ≤ Config.maxLen) (s : State) :
    (beginTransact n s).len.toNat = n := by
  have hmax : Config.maxLen = 8191 := rfl
  rw [beginTransact_len, BitVec.toNat_ofNat]
  omega

/-- Settles O18: the acceptance is `beginTransact`. -/
theorem transactAccepted_of_idle : Obligations.TransactAccepted := by
  intro n s hp hn
  have hlen := toNat_beginTransact_len hn s
  refine ⟨_, exec_transact_of_idle hp hn, hlen, ?bitcnt, rfl, rfl, ⟨rfl, rfl⟩, rfl, rfl, rfl, rfl,
    fun _ => rfl, fun _ => rfl, fun _ => rfl, rfl⟩
  rw [toNat_bitcnt, hlen, Nat.mul_comm]

/-! ### The HOST while `BUSY` = 1 (R25, R55, R200) -/

/-- R25, R55: commands and buffer accesses wait for an idle core. -/
theorem hostWaits_of_busy {s : State} {a : HostAction} {rest : List HostAction} (hp : s.phase ≠ .idle)
    (hh : s.host = a :: rest)
    (ha : (∃ w, a = .command w) ∨ (∃ addr data, a = .obWrite addr data) ∨ (∃ addr, a = .obRead addr) ∨
      (∃ addr, a = .ibRead addr)) : hostWaits s = true := by
  rw [hostWaits, hh]
  obtain ⟨w, rfl⟩ | ⟨addr, data, rfl⟩ | ⟨addr, rfl⟩ | ⟨addr, rfl⟩ := ha <;> simpa [hostMay] using hp

/-- Settles O20: the step is the CORE's, which touches neither what the HOST has to do nor `OB`. -/
theorem noCommandWhileBusy : Obligations.NoCommandWhileBusy := by
  intro s hbusy
  have hp : s.phase ≠ .idle := (busy_iff s).mp hbusy
  refine ⟨fun en => if_neg hp, fun n => if_neg hp, by simpa [State.cmdReady] using hp,
    fun a rest hh ha => ?_⟩
  obtain ⟨t, hcore⟩ := coreStep_answers s
  have hcase := coreStep_next hcore
  exact ⟨t, (stepWith_of_hostWaits _ s (hostWaits_of_busy hp hh ha)).trans hcore, hcase.host_eq,
    bufferKept_ob_of_eq hcase.ob_eq⟩

/-! ### The phases of a `TRANSACT` (R118, R119, R130) -/

/-- Settles O22: the step is `revOutPhase`'s. -/
theorem revOutPhaseReversesOutbound : Obligations.RevOutPhaseReversesOutbound := by
  intro s hw hp
  have hr : s.request = none := by simp [State.request, hp]
  have hstep : step s = .next (revOutPhase s) := by rw [step_of_no_request hw hr, ownPhase, hp]
  refine ⟨hr, _, hstep, rfl, fun k hk => ?below, fun k hk => ?above, ?ob, ?ib, revOutPhase_eq s⟩
  case below => rw [revOutPhase_tx, if_pos hk]
  case above => rw [revOutPhase_tx, if_neg (Nat.not_lt.mpr hk)]
  case ob => exact bufferKept_ob_of_eq (revOutPhase_ob s)
  case ib => intro k; simp

/-- R76: the word of an exchange: kind 2 above the bit count. -/
theorem toNat_encodeXchg (bc : BitCount) : (encodeXchg bc).toNat = 0x20000 + bc.toNat := by
  refine (BitVec.toNat_append 2#2 bc).trans ?_
  rw [← Nat.shiftLeft_add_eq_or_of_lt bc.isLt]
  rfl

section

variable {s : State} {rx : List Byte} {rest : List LinkInput}

theorem exec_xchg_ok (hp : s.phase = .exchange) (hn : nextAnswer s.link = some (.ok rx, rest))
    (hlen : rx.length = s.len.toNat) :
    exec (.xchg s.bitcnt) s = .next (exchangeReturned rx rest s) := by
  show execXchg s.bitcnt s = _
  rw [execXchg, if_pos (request_of_exchange hp), hn]
  exact if_pos hlen

/-- R119: the bytes that the LINK returned stand in `RX`. -/
theorem exchangeReturned_ib_read (hlen : rx.length = s.len.toNat) (k : Nat) :
    (exchangeReturned rx rest s).ib.read k = if k < s.len.toNat then rx[k]? else s.ib.read k :=
  exchangeDeselected_ib_read hlen rest k

end

/-- Settles O23: the answer is `exchangeReturned`'s. -/
theorem exchangeAnswered : Obligations.ExchangeAnswered := by
  intro s rx rest hp hn hlen
  have hib := exchangeReturned_ib_read (rest := rest) hlen
  refine ⟨⟨_, requestWord_of_request (request_of_exchange hp), ?word⟩, length_txBytes s,
    getElem?_txBytes s, _, exec_xchg_ok hp hn hlen, rfl, rfl, fun k hk => ?below, fun k hk => ?above,
    fun _ => rfl, fun _ => rfl, rfl, rfl, rfl, rfl⟩
  case word => rw [toNat_encodeXchg, toNat_bitcnt, Nat.mul_comm]
  case below => rw [hib, if_pos hk]
  case above => rw [hib, if_neg (Nat.not_lt.mpr hk)]

/-- Settles O34: the run and the response of a `TRANSACT` whose three requests succeed. -/
theorem transactSucceeds : Obligations.TransactSucceeds := by
  intro cfg s n rest d1 rx d2 lrest hstart hlink hrx
  obtain ⟨hrun, htrace⟩ :=
    runSteps_transactCompleted cfg hstart (by rw [hlink]; rfl) rfl hrx (link'' := lrest) rfl
  obtain ⟨-, -, hn, -⟩ := hstart
  exact ⟨_, hrun, responded_transactCompleted hn rest _ lrest s hrx,
    bufferKept_ob_of_eq (transactCompleted_ob rest _ lrest s), htrace,
    transactCompleted_linkLog hn rest _ lrest s, transactCompleted_host s n rest rx _ lrest,
    transactCompleted_link s n rest rx _ lrest⟩

end Sys2Proof.Machine
end


section
/-! The sessions of spec/43_session_sequences.md that take no rounds, and the recovery of spec/60_exceptions.md
section 5. -/

namespace Sys2Proof.Machine

/-! ### The recovery (R182, R183) -/

/-- R75: the word of the recovery. -/
theorem encodeSetcs_false : encodeSetcs false = 0x2000#16 := rfl

theorem recoveryActions_true : recoveryActions true = [.command 0x2000#16, .close false] := rfl

section

variable {s : State}

theorem recoveryDue_of_clear (h : s.recovery = .clear) :
    recoveryDue s = (s.err && recoveryOwed s.ecode s.css) := by
  simp [recoveryDue, h]

theorem recoveryDue_of_owed (h : s.recovery = .owed) : recoveryDue s = true := by simp [recoveryDue, h]

theorem recoveryDue_of_issued (h : s.recovery = .issued) : recoveryDue s = false := by
  simp [recoveryDue, h]

/-- R182: the failure of a link request owes the recovery unless the chip select is de-asserted. -/
theorem recoveryOwed_of_link {code : ECode} {css : Css}
    (hcode : code = .eCsAssert ∨ code = .eXchg ∨ code = .eCsDeassert ∨ code = .eCtl)
    (hcss : css ≠ .deasserted) : recoveryOwed code css = true := by
  obtain rfl | rfl | rfl | rfl := hcode <;> exact bne_iff_ne.mpr hcss

theorem recoveryOwed_of_deasserted (code : ECode) : recoveryOwed code .deasserted = false := by
  cases code <;> rfl

/-- R182: `E_CMD` and `E_LEN` owe none. -/
theorem recoveryOwed_of_own {code : ECode} (hcode : code = .eCmd ∨ code = .eLen) (css : Css) :
    recoveryOwed code css = false := by
  obtain rfl | rfl := hcode <;> rfl

end

/-- R154: a failure that stands ends a sequence at its start. -/
theorem hostStart_of_stands (cfg : Parameters) {s : State} (input : List Byte) (hstart : mayStart s = true)
    (hstands : failureStands s = true) : hostStart cfg input s = .next (failSession s) := by
  have hloop : mayLoop s = true := mayLoop_iff.mpr (.inl hstart)
  cases hmode : cfg.mode <;> simp [hostStart, hmode, hstart, hloop, hstands]

/-- R154, R182: the HOST looks at the result of a command that failed. -/
theorem stepWith_failSession (cfg : Parameters) {s : State} {rest : List HostAction} (hp : s.phase = .idle)
    (herr : s.err = true) (hh : s.host = .check :: rest ∨ s.host = .emit :: rest ∨
      (s.hostState = .deviceReady ∧ s.stage = .fresh ∧ ∃ input, s.host = .start input :: rest)) :
    stepWith cfg s = .next (failSession s) := by
  obtain hh | hh | ⟨hready, hfresh, input, hh⟩ := hh <;> rw [stepWith_host_idle cfg s _ rest hp hh]
  · exact congrArg Host.Outcome.next (if_pos herr)
  · exact if_pos herr
  · exact hostStart_of_stands cfg (s := { s with host := rest }) input
      (mayStart_iff.mpr ⟨hready, hfresh⟩) (by simp [failureStands, herr])

section

variable {cfg : Parameters} {s : State} {b : Bool} {rest : List HostAction}

/-- R146: as failed the HOST may close at any moment, in success when its sequence is finished. -/
theorem mayClose_of_open (hopen : ∀ c, s.hostState ≠ .closed c)
    (hb : b = false ∨ (s.hostState ≠ .idle ∧ s.stage = .finished)) : mayClose b s = true := by
  cases hs : s.hostState with
  | closed c => exact absurd hs (hopen c)
  | idle => obtain rfl | ⟨hidle, -⟩ := hb <;> simp_all [mayClose]
  | deviceReady | oneShotTransfer | interactiveLoop =>
    cases b with
    | false => simp [mayClose, hs]
    | true => simp_all [mayClose]

section

variable (hp : s.phase = .idle) (hh : s.host = .close b :: rest) (hmay : mayClose b s = true)
include hp hh hmay

/-- R182: no `CLOSE` comes before a recovery that is due. -/
theorem stepWith_close_of_due (hdue : recoveryDue s = true) :
    stepWith cfg s = .next { s with host := [.command 0x2000#16, .close false], stage := .failed } := by
  have hblocked : closeBlocked b s = true := by cases b <;> simp [closeBlocked, failureStands, hdue]
  have hclose : hostClose b { s with host := rest } = .next (failSession { s with host := rest }) := by
    rw [hostClose, if_pos (show mayClose b { s with host := rest } = true from hmay)]
    exact if_pos hblocked
  have hactions : recoveryActions (recoveryDue s) = [.command 0x2000#16, .close false] := by
    rw [hdue, recoveryActions_true]
  rw [stepWith_host_idle cfg s _ rest hp hh, ← hactions]
  exact hclose

/-- R153: a `CLOSE` that nothing stands in the way of. -/
theorem stepWith_close_of_free (hfree : closeBlocked b s = false) :
    stepWith cfg s = .next (closeSession b s) := by
  rw [stepWith_host_idle cfg s _ rest hp hh]
  exact hostClose_of_free (s := { s with host := rest }) hmay hfree

end

end

/-- R182: what the HOST remembers when it issues a command, whatever the command does. -/
theorem stepWith_command_recovery (cfg : Parameters) {s : State} {w : CommandWord} {rest : List HostAction}
    (hp : s.phase = .idle) (hh : s.host = .command w :: rest) :
    ∃ t, stepWith cfg s = .next t ∧ t.recovery = recoveryAfter w s := by
  cases hd : decode (.c w) with
  | error e =>
    refine ⟨illegalCommand (noteCommand w { s with host := rest }), ?_, rfl⟩
    rw [stepWith_host_idle cfg s _ rest hp hh, hostFetch, commandFetch, hd]
    rfl
  | ok i =>
    rw [stepWith_command cfg s w i rest hp hh hd]
    obtain ⟨en, rfl⟩ | ⟨n, rfl, hn⟩ := decodeCommand_ok hd
    · exact ⟨_, exec_setcs_of_idle (s := noteCommand w { s with host := rest }) en hp, rfl⟩
    · exact ⟨_, exec_transact_of_idle (s := noteCommand w { s with host := rest }) hp hn, rfl⟩

/-- R182: after any other command than `setcs 0` the recovery is still owed. -/
theorem recoveryAfter_of_other {s : State} {w : CommandWord} (hdue : recoveryDue s = true)
    (hw : w ≠ 0x2000#16) : recoveryAfter w s = .owed := by
  simp [recoveryAfter, hdue, encodeSetcs_false, hw]

/-- R183: the recovery is issued once. -/
theorem recoveryAfter_of_setcs {s : State} (hdue : recoveryDue s = true) (hstage : s.stage ≠ .booting) :
    recoveryAfter 0x2000#16 s = .issued := by
  simp [recoveryAfter, hdue, encodeSetcs_false, hstage]

theorem recoveryAfter_of_not_due {s : State} (w : CommandWord) (hdue : recoveryDue s = false) :
    recoveryAfter w s = .clear := by
  simp [recoveryAfter, hdue]

/-- Settles O51: the actions are `recoveryActions` of whether a recovery is due, which is read off what the HOST
remembers. -/
theorem hostRecovery : Obligations.HostRecovery := by
  refine ⟨?fail, ?close, ?command⟩
  case fail =>
    intro cfg s rest hp herr hh
    have hhost : ∀ {due : Bool}, recoveryDue s = due → (failSession s).host = recoveryActions due :=
      fun h => congrArg recoveryActions h
    refine ⟨_, stepWith_failSession cfg hp herr hh, fun hclear hcode hcss => ?link,
      fun hclear hcss => ?deasserted, fun hclear hcode => ?own,
      fun howed => hhost (recoveryDue_of_owed howed), fun hissued => hhost (recoveryDue_of_issued hissued),
      rfl, fun _ _ => rfl, rfl⟩
    case link =>
      exact hhost (by rw [recoveryDue_of_clear hclear, herr, recoveryOwed_of_link hcode hcss, Bool.and_self])
    case deasserted =>
      exact hhost (by rw [recoveryDue_of_clear hclear, hcss, recoveryOwed_of_deasserted, Bool.and_false])
    case own =>
      exact hhost (by rw [recoveryDue_of_clear hclear, recoveryOwed_of_own hcode, Bool.and_false])
  case close =>
    intro cfg s b rest hp hopen hh
    refine ⟨fun hdue hb => stepWith_close_of_due hp hh (mayClose_of_open hopen hb) hdue, ?_⟩
    rintro hdue rfl
    exact ⟨_, stepWith_close_of_free hp hh (mayClose_of_open hopen (.inl rfl)) hdue, rfl, rfl, rfl,
      fun _ _ => rfl⟩
  case command =>
    intro cfg s w rest hp hh
    obtain ⟨t, hstep, hrecovery⟩ := stepWith_command_recovery cfg hp hh
    refine ⟨t, hstep, fun hdue hw => hrecovery.trans (recoveryAfter_of_other hdue hw), ?issued, ?clear⟩
    case issued =>
      rintro hdue rfl hstage
      exact hrecovery.trans (recoveryAfter_of_setcs hdue hstage)
    case clear =>
      rintro (hdue | ⟨rfl, hstage⟩)
      · exact hrecovery.trans (recoveryAfter_of_not_due w hdue)
      · exact hrecovery.trans (recoveryAfter_of_booting hstage)

/-! ### The starts of the sequences, and fatal inputs (R148, R149, R151) -/

section

variable {cfg : Parameters} {s : State} {input : List Byte} {rest : List HostAction}

/-- R149, R151: a start that leaves nothing but a `CLOSE` as failed to do. -/
theorem runSteps_closeFailed {u : State} (hbegin : stepWith cfg s = .next u) (hp : u.phase = .idle)
    (hopen : ∀ c, u.hostState ≠ .closed c) (hfree : NoFailure u) (hh : u.host = .close false :: rest) :
    runSteps cfg 2 s = .next (closeSession false u) := by
  have hclose : stepWith cfg u = .next (closeSession false u) :=
    stepWith_close_of_free hp hh (mayClose_of_open hopen (.inl rfl)) (hfree.closeBlocked false)
  exact (runSteps_succ cfg 1 _ _ hbegin).trans (runSteps_succ cfg 0 _ _ hclose)

/-- R151: the partial block leaves `CLOSE` alone to do. -/
theorem interactiveActions_of_partial {l : Nat} (hpos : 0 < input.length) (hlt : input.length < l) :
    interactiveActions l input = [.close false] := by
  rw [interactiveActions, if_neg (by omega), if_pos hlt]

/-- R149: the sequence `ONESHOT` begins. -/
def oneShotBegun (input : List Byte) (rest : List HostAction) (s : State) : State :=
  { s with
    host := oneShotActions input ++ rest, hostState := .oneShotTransfer, stage := oneShotStage input }

/-- R148: the sequence `CSACTION b` begins. -/
def csActionBegun (b : Bool) (rest : List HostAction) (s : State) : State :=
  { s with host := csActionActions b ++ rest, stage := .acting }

section

variable (hp : s.phase = .idle) (hready : s.hostState = .deviceReady) (hfresh : s.stage = .fresh)
  (hfree : NoFailure s) (hh : s.host = .start input :: rest)
include hp hready hfresh hfree hh

/-- R148, R149: from `DeviceReady` with no failure standing, the sequence of the configured mode begins. -/
theorem stepWith_sequenceBegun :
    (cfg.mode = .oneShot → stepWith cfg s = .next (oneShotBegun input rest s)) ∧
    (∀ b, cfg.mode = .csAction b → stepWith cfg s = .next (csActionBegun b rest s)) := by
  have hstart : mayStart { s with host := rest } = true := mayStart_iff.mpr ⟨hready, hfresh⟩
  have hstands : failureStands { s with host := rest } = false := (failureStands_eq_false_iff s).mpr hfree
  rw [stepWith_host_idle cfg s _ rest hp hh, hostFetch, Fetched.outcome, hostStart]
  refine ⟨fun hmode => ?_, fun b hmode => ?_⟩
  · simp only [hmode, hstart, hstands, if_true]
    rfl
  · simp only [hmode, hstart, hstands, if_true]
    rfl

end

/-- Settles O52: a round begins and ends at once in the `CLOSE` that R151 asks for. -/
theorem partialBlockIsFatal : Obligations.PartialBlockIsFatal := by
  intro cfg s l input rest hp hcfg hawaits hpos hlt hh
  have hbegin := stepWith_roundBegun hp hcfg hawaits hh
  have hhost : (roundBegun l input rest s).host = .close false :: rest := by
    rw [roundBegun, interactiveActions_of_partial hpos hlt]
    rfl
  exact ⟨_, runSteps_closeFailed hbegin hp nofun hawaits.1 hhost, rfl, rfl, rfl, rfl, hp, fun _ _ => rfl⟩

/-- Settles O53: the sequence begins and ends at once in the `CLOSE` that R149 asks for. -/
theorem oversizedInputIsFatal : Obligations.OversizedInputIsFatal := by
  intro cfg s input rest hmode hp hready hfresh hfree hlong hh
  have hbegin := (stepWith_sequenceBegun hp hready hfresh hfree hh).1 hmode
  have hhost : (oneShotBegun input rest s).host = .close false :: rest := by
    rw [oneShotBegun, oneShotActions, if_pos hlong]
    rfl
  exact ⟨_, runSteps_closeFailed hbegin hp nofun hfree hhost, rfl, rfl, rfl, rfl, hp, fun _ _ => rfl⟩

/-! ### A whole one-shot session (R149) -/

/-- Settles O54: the start, the transfer of the whole input, and `CLOSE`. -/
theorem oneShotEmitsResponse : Obligations.OneShotEmitsResponse := by
  intro cfg s input rest d1 rx d2 lrest hmode hp hready hfresh hfree hmax hrx hh hlink
  have hbegin := (stepWith_sequenceBegun hp hready hfresh hfree hh).1 hmode
  have hhost : (oneShotBegun input rest s).host = transferActions input ++ .close true :: rest := by
    rw [oneShotBegun, oneShotActions, if_neg (by omega), List.append_assoc]
    rfl
  have hstage : (oneShotBegun input rest s).stage = .transferring := if_neg (Nat.not_lt.mpr hmax)
  obtain ⟨t, hrun, ht⟩ := runSteps_transferred cfg (s := oneShotBegun input rest s) hp hstage hfree hmax
    hrx hhost hlink
  have hstate : t.hostState = .oneShotTransfer := ht.hostState
  have hclose : stepWith cfg t = .next (closeSession true t) :=
    stepWith_close_of_free ht.phase ht.host
      (mayClose_of_open (by simp [hstate]) (.inr ⟨by simp [hstate], ht.stage⟩))
      (ht.noFailure.closeBlocked true)
  have hsteps : runSteps cfg (input.length + 9) s = .next (closeSession true t) := by
    rw [runSteps_succ cfg (input.length + 8) _ _ hbegin, runSteps_add cfg (input.length + 7) 1 _ _ hrun]
    exact runSteps_succ cfg 0 _ _ hclose
  exact ⟨_, hsteps, rfl, rfl, ht.emitted, ht.linkLog, ht.ob, ht.css, ht.link⟩

/-! ### A direct chip-select session (R148) -/

/-- A `SETCS` leaves the HOST's state and what it has emitted. -/
theorem setcsCompleted_hostState (en : Bool) (rest : List HostAction) (link : List LinkInput) (s : State) :
    (setcsCompleted en rest link s).hostState = s.hostState := by
  simp [setcsCompleted]

theorem setcsCompleted_emitted (en : Bool) (rest : List HostAction) (link : List LinkInput) (s : State) :
    (setcsCompleted en rest link s).emitted = s.emitted := by
  simp [setcsCompleted]

/-- The `SETCS` of a direct chip-select action has succeeded, and the HOST is about to look at the result. -/
def csActionCommanded (b : Bool) (rest : List HostAction) (link : List LinkInput) (s : State) : State :=
  setcsCompleted b (.check :: .close true :: rest) link (csActionBegun b rest s)

/-- The HOST has seen the success, and `CLOSE` is left. -/
def csActionFinished (b : Bool) (rest : List HostAction) (link : List LinkInput) (s : State) : State :=
  { csActionCommanded b rest link s with host := .close true :: rest, stage := .finished }

end

section

variable (cfg : Parameters) (b : Bool) (rest : List HostAction) (link : List LinkInput) (s : State)

/-- R154: the look at the result of the action. -/
theorem stepWith_csActionFinished :
    stepWith cfg (csActionCommanded b rest link s) = .next (csActionFinished b rest link s) :=
  stepWith_host_idle cfg _ .check (.close true :: rest) rfl rfl

theorem csActionFinished_store (sp : Space) : (csActionFinished b rest link s).store sp = s.store sp := by
  have hsetcs := setcsCompleted_store b (.check :: .close true :: rest) link (csActionBegun b rest s) sp
  cases sp <;> exact hsetcs

theorem csActionFinished_linkLog : (csActionFinished b rest link s).linkLog =
    s.linkLog ++ [if b then .ctlClear (.ok []) else .ctlSet (.ok [])] :=
  setcsCompleted_linkLog b (.check :: .close true :: rest) link (csActionBegun b rest s)

theorem csActionFinished_css :
    (csActionFinished b rest link s).css = if b then .asserted else .deasserted :=
  setcsCompleted_css b (.check :: .close true :: rest) link (csActionBegun b rest s)

theorem csActionFinished_lineOf :
    lineOf (csActionFinished b rest link s).css (csActionFinished b rest link s).line := by
  rw [csActionFinished_css, show (csActionFinished b rest link s).line = lineAfter (controlVerb b) from rfl]
  cases b with
  | false => exact lineAfter_set_ne
  | true => exact rfl

theorem csActionFinished_phase : (csActionFinished b rest link s).phase = .idle := rfl

theorem csActionFinished_host : (csActionFinished b rest link s).host = .close true :: rest := rfl

theorem csActionFinished_stage : (csActionFinished b rest link s).stage = .finished := rfl

theorem csActionFinished_link : (csActionFinished b rest link s).link = link := rfl

theorem csActionFinished_hostState : (csActionFinished b rest link s).hostState = s.hostState :=
  setcsCompleted_hostState b (.check :: .close true :: rest) link (csActionBegun b rest s)

theorem csActionFinished_emitted : (csActionFinished b rest link s).emitted = s.emitted :=
  setcsCompleted_emitted b (.check :: .close true :: rest) link (csActionBegun b rest s)

/-- R182: issued while no failure stands, the action leaves none. -/
theorem noFailure_csActionFinished (hfree : NoFailure s) : NoFailure (csActionFinished b rest link s) := by
  have hclear : (csActionFinished b rest link s).recovery = .clear :=
    recoveryAfter_of_not_due (s := { csActionBegun b rest s with host := .check :: .close true :: rest }) _
      hfree.not_due
  exact ⟨rfl, by simp [hclear]⟩

end

/-- R75, R78: the word of `SETCS`, as the HOST's command. -/
theorem encodeSetcs_eq_ite (en : Bool) : encodeSetcs en = if en then 0x2001#16 else 0x2000#16 := by
  cases en <;> rfl

/-- Settles O56: the start, the `SETCS`, the look at its result, and `CLOSE`. -/
theorem csActionSession : Obligations.CsActionSession := by
  intro cfg s b input rest d lrest hmode hp hready hfresh hfree hh hlink
  have hbegin := (stepWith_sequenceBegun hp hready hfresh hfree hh).2 b hmode
  have hstart : StartsSetcs (csActionBegun b rest s) b (.check :: .close true :: rest) :=
    ⟨hp, congrArg (HostAction.command · :: .check :: .close true :: rest) (encodeSetcs_eq_ite b), rfl⟩
  have hanswer : nextAnswer (csActionBegun b rest s).link = some (.ok d, lrest) := congrArg nextAnswer hlink
  have hsetcs : runSteps cfg 2 (csActionBegun b rest s) = .next (csActionCommanded b rest lrest s) :=
    runSteps_setcsCompleted cfg hstart hanswer
  have hcheck := stepWith_csActionFinished cfg b rest lrest s
  have hstate := (csActionFinished_hostState b rest lrest s).trans hready
  have hclose : stepWith cfg (csActionFinished b rest lrest s) =
      .next (closeSession true (csActionFinished b rest lrest s)) :=
    stepWith_close_of_free (csActionFinished_phase ..) (csActionFinished_host ..)
      (mayClose_of_open (by simp [hstate]) (.inr ⟨by simp [hstate], csActionFinished_stage ..⟩))
      ((noFailure_csActionFinished b rest lrest s hfree).closeBlocked true)
  have hrun : runSteps cfg 5 s = .next (closeSession true (csActionFinished b rest lrest s)) := by
    rw [runSteps_succ cfg 4 _ _ hbegin, runSteps_add cfg 2 2 _ _ hsetcs, runSteps_succ _ _ _ _ hcheck]
    exact runSteps_succ cfg 0 _ _ hclose
  exact ⟨_, hrun, rfl, rfl, csActionFinished_css b rest lrest s, csActionFinished_lineOf b rest lrest s,
    csActionFinished_linkLog b rest lrest s, csActionFinished_emitted b rest lrest s,
    buffersKept_of_store (csActionFinished_store b rest lrest s), csActionFinished_link b rest lrest s⟩

end Sys2Proof.Machine
end
